-- ==== Sys2Proof/Word.lean ====
section
/-! DEFINITION. The widths of the frame parser's values (00_scope.md R6: every quantity is an unsigned integer;
10_state.md R15 to R17: 8-, 16-, 32- and 48-bit fields). -/

namespace Sys2Proof

/-- A byte of a frame, of the preview buffer or of a channel (R6). -/
abbrev Byte := BitVec 8

/-- A 16-bit field: ethertype, total length, port, window (R15 to R17). -/
abbrev Half := BitVec 16

/-- A 32-bit field: address, sequence number, acknowledgment number (R16, R17). -/
abbrev Word := BitVec 32

/-- A 48-bit MAC address, first captured byte in bits 47:40 (R15). -/
abbrev Mac := BitVec 48

end Sys2Proof
end

