-- ==== Sys2Proof/Syntax.lean ====
section
/-! DEFINITION. The operations of the block, one constructor per row of spec/opcode_table.json, with the data an
operation takes as an operand (the report record of 10_state.md R21), the six flags of 30_encoding.md R67, and the
reference frame of 30_encoding.md R74. -/

namespace Sys2Proof

/-- The report record (10_state.md R21): thirteen fields, copies of stage registers. -/
structure PacketReport where
  ipSrc : Word
  ipDst : Word
  ipTotalLength : Half
  srcPort : Half
  dstPort : Half
  seq : Word
  ack : Word
  headerLen : BitVec 6
  window : Half
  flags : BitVec 6
  payloadLen : Half
  previewLen : BitVec 7
  preview : List Byte
  deriving DecidableEq, Repr, Inhabited

/-- The six named flags (30_encoding.md R63, R67). -/
inductive Flag where
  | syn
  | ack
  | fin
  | rst
  | psh
  | urg
  deriving DecidableEq, Repr

/-- The block's operations: the 52 rows of spec/opcode_table.json in the table's order. An operation whose rule names
operands outside the named state carries them (R193, R195 to R198). -/
inductive Instr where
  | framePass
  | run
  | nextFrame
  | emitReport
  | emitDiag
  | captureError
  | ethParse
  | ethLenchk
  | ethDst
  | ethSrc
  | ethType
  | ethRest
  | ethDispatch
  | ipv4Parse
  | ipLenchk
  | ipVihl
  | ipHlen
  | ipHlenchk
  | ipTotlen
  | ipProto
  | ipSrc
  | ipDst
  | ipSlice
  | ipDispatch
  | tcpParse
  | tcpLenchk
  | tcpSport
  | tcpDport
  | tcpSeq
  | tcpAck
  | tcpDoff
  | tcpDoffmin
  | tcpHlenchk
  | tcpFlags
  | tcpWin
  | tcpFlagset
  | flagSyn
  | flagAck
  | flagFin
  | flagRst
  | flagPsh
  | flagUrg
  | tcpPayload
  | render
  | reportAssemble
  | previewLen
  | previewChar (b : Byte)
  | previewBuild
  | flagsText (flags : BitVec 6)
  | ipv4Text (a : Word)
  | decText (v : Nat)
  | renderText (r : PacketReport)
  deriving DecidableEq, Repr

/-- What the reference encoder of 30_encoding.md R74 is given: the fields of the three headers, the two option strings,
the payload, the bytes "of any value", and the trailing bytes. -/
structure FrameSpec where
  ethDst : Mac
  ethSrc : Mac
  tos : Byte
  ident : Half
  fragment : Half
  ttl : Byte
  ipChecksum : Half
  ipSrc : Word
  ipDst : Word
  ipOptions : List Byte
  srcPort : Half
  dstPort : Half
  seq : Word
  ack : Word
  reserved : BitVec 4
  flags : Byte
  window : Half
  tcpChecksum : Half
  urgent : Half
  tcpOptions : List Byte
  payload : List Byte
  trailing : List Byte
  deriving DecidableEq, Repr

end Sys2Proof
end

