-- ==== Sys2Proof/Config.lean ====
section
/-! DEFINITION. The block's fixed constants (00_scope.md R5) and the free values: what a register holds while the spec
gives it no value (10_state.md R24, R26; 93_implementation_defined.md U1, U2), and the results the spec does not state.
The free values have no body, so nothing can be proved about them (notes/assumptions/2.md, 15.md). -/

namespace Sys2Proof.Config

/-- `ETH_HDR_LEN` (R5). -/
def ethHdrLen : Nat := 14
/-- `ETHERTYPE_IPV4` (R5; the spec's decision D4). -/
def ethertypeIpv4 : Half := 0x0800
/-- `IP_MIN_HDR` (R5). -/
def ipMinHdr : Nat := 20
/-- `IP_MIN_IHL` (R5; the spec's decision D9). -/
def ipMinIhl : Nat := 5
/-- `IP_PROTO_TCP` (R5). -/
def ipProtoTcp : Byte := 6
/-- `TCP_MIN_HDR` (R5). -/
def tcpMinHdr : Nat := 20
/-- `TCP_MIN_DOFF` (R5). -/
def tcpMinDoff : Nat := 5
/-- `WORD_BYTES` (R5). -/
def wordBytes : Nat := 4
/-- `PREVIEW_MAX` (R5). -/
def previewMax : Nat := 64
/-- `PLACEHOLDER` (R5; the spec's decision D19). -/
def placeholder : Byte := 0x2E
/-- `PRINTABLE_LO` (R5; D19). -/
def printableLo : Byte := 0x20
/-- `PRINTABLE_HI` (R5; D19). -/
def printableHi : Byte := 0x7E
/-- `FLAG_SEP` (R5; D18). -/
def flagSep : String := ", "
/-- `NO_FLAGS` (R5). -/
def noFlags : String := "(none)"

/-- The names of the registers that hold no value after reset and between passes (10_state.md R14 to R20, R26), and of
the model's own `charOut`. -/
inductive RegName where
  | len
  | ipOff
  | ipLen
  | ipHlen
  | segOff
  | segLen
  | tcpHlen
  | payOff
  | payLen
  | ethDst
  | ethSrc
  | ethType
  | ipVihl
  | ipTotlen
  | ipProto
  | ipSrc
  | ipDst
  | tcpSport
  | tcpDport
  | tcpSeq
  | tcpAck
  | tcpDoff
  | tcpFlags
  | tcpWin
  | flagset
  | pvLen
  | status
  | charOut
  deriving DecidableEq, Repr

/-- FREE VALUE: what a natural-number register holds while the spec gives it none, for each time this happens
(DESIGN CHOICE, safe: notes/assumptions/2.md). -/
opaque unwrittenNat (name : RegName) (epoch : Nat) : Nat

/-- FREE VALUE: the same for a register of `w` bits (DESIGN CHOICE, safe: notes/assumptions/2.md). -/
opaque unwrittenBits (w : Nat) (name : RegName) (epoch : Nat) : BitVec w

/-- FREE VALUE: the same for the byte `PV[index]` of the preview buffer (R19, U3; DESIGN CHOICE, safe:
notes/assumptions/4.md). -/
opaque unwrittenPreview (index epoch : Nat) : Byte

/-- FREE VALUE: the same for the report record's register (DESIGN CHOICE, safe: notes/assumptions/2.md). -/
opaque unwrittenReport (epoch : Nat) : PacketReport

/-- FREE VALUE: the register `name`, set to a difference `a - b` whose guard does not hold (R6: "every place where `a - b`
could be negative is guarded"); no run comes there (DESIGN CHOICE, safe: notes/assumptions/15.md). -/
opaque unguarded (name : RegName) (a b : Nat) : Nat

/-- FREE VALUE: the record's `w`-bit copy of the register `name` while the register holds a number `v` beyond the range
R21 gives the field; no run comes there (DESIGN CHOICE, safe: notes/assumptions/15.md). -/
opaque tooWide (w : Nat) (name : RegName) (v : Nat) : BitVec w

end Sys2Proof.Config
end

