-- ==== Sys2Proof/WellFormed.lean ====
section
/-! DEFINITION. Well-formedness of the operands an operation carries, and of the frames the reference encoder is asked
for. -/

namespace Sys2Proof

/-- The record's preview is a list of exactly `preview_len` bytes, at most 64 (10_state.md R21; U3). -/
def PacketReport.wf (r : PacketReport) : Bool :=
  r.preview.length == r.previewLen.toNat && decide (r.previewLen.toNat ≤ Config.previewMax)

/-- Operands within what the encoding of an operation can carry: every operand of a fixed width is well formed;
`DEC_TEXT` takes an unsigned integer (R197) of at most 255 bytes (notes/assumptions/10.md); `RENDER_TEXT` takes a
well-formed record. -/
def Instr.wf : Instr → Bool
  | .decText v => decide (v < 256 ^ 255)
  | .renderText r => r.wf
  | .framePass | .run | .nextFrame | .emitReport | .emitDiag | .captureError
  | .ethParse | .ethLenchk | .ethDst | .ethSrc | .ethType | .ethRest | .ethDispatch
  | .ipv4Parse | .ipLenchk | .ipVihl | .ipHlen | .ipHlenchk | .ipTotlen | .ipProto | .ipSrc | .ipDst | .ipSlice
  | .ipDispatch
  | .tcpParse | .tcpLenchk | .tcpSport | .tcpDport | .tcpSeq | .tcpAck | .tcpDoff | .tcpDoffmin | .tcpHlenchk
  | .tcpFlags | .tcpWin | .tcpFlagset | .flagSyn | .flagAck | .flagFin | .flagRst | .flagPsh | .flagUrg | .tcpPayload
  | .render | .reportAssemble | .previewLen | .previewChar _ | .previewBuild
  | .flagsText _ | .ipv4Text _ => true

/-- What 30_encoding.md R74 asks of the encoder's input: option strings of whole words, at most 40 bytes each, and a
packet of at most 65535 bytes. -/
def FrameSpec.wf (f : FrameSpec) : Bool :=
  f.ipOptions.length % Config.wordBytes == 0 && decide (f.ipOptions.length ≤ 40)
    && f.tcpOptions.length % Config.wordBytes == 0 && decide (f.tcpOptions.length ≤ 40)
    && decide (20 + f.ipOptions.length + 20 + f.tcpOptions.length + f.payload.length ≤ 65535)

end Sys2Proof
end

