-- ==== Sys2Proof/Decode.lean ====
section
/-! DEFINITION. What the block decodes: the header formats (30_encoding.md R60 to R62), the flag table (R67), the
dispatch codes (R66); the byte-order and bit-field helpers (20_memory.md R41, R65); the decoder of operation words and,
after it, the encoder; and the reference frame encoder (R74).

The block fetches no instructions (R13, R51, R73): only ten rows of the opcode table have a code, each the value of a
SELECTOR the block looks at. An operation word is the byte that names the selector, then the selector's bytes; a wired
row (match 0, mask 0) is named by its row number. The selector bytes and the row numbers are a DESIGN CHOICE of the
model (notes/assumptions/10.md); the codes are the spec's. -/

namespace Sys2Proof

/-! ## Byte order and bit fields -/

/-- The unsigned value of a byte string, first byte most significant (20_memory.md R41, R42). -/
def beValue (bs : List Byte) : Nat := bs.foldl (fun acc b => acc * 256 + b.toNat) 0

/-- The `n` bytes of `v` modulo `256^n`, most significant first: the inverse of `beValue`. -/
def beBytes : Nat → Nat → List Byte
  | 0, _ => []
  | n + 1, v => beBytes n (v / 256) ++ [BitVec.ofNat 8 v]

/-- How many bytes the unsigned integer `v` takes, at least one. -/
def byteCount (v : Nat) : Nat := v.log2 / 8 + 1

/-- Bits 3:0 of a byte (30_encoding.md R65). -/
def lowNibble (b : Byte) : BitVec 4 := BitVec.extractLsb' 0 4 b

/-- Bits 7:4 of a byte (30_encoding.md R65). -/
def highNibble (b : Byte) : BitVec 4 := BitVec.extractLsb' 4 4 b

/-! ## Header formats -/

/-- The widths a read of the frame has (20_memory.md R41: 1, 2, 4 or 6 bytes). -/
inductive Width where
  | b1
  | b2
  | b4
  | b6
  deriving DecidableEq, Repr

/-- A width in bytes. -/
def Width.bytes : Width → Nat
  | .b1 => 1
  | .b2 => 2
  | .b4 => 4
  | .b6 => 6

/-- A field of a header: its offset from the start of its header, and its width. -/
structure FieldAt where
  offset : Nat
  width : Width
  deriving DecidableEq, Repr

/-- Ethernet destination address (R60). -/
def Layout.ethDst : FieldAt := ⟨0, .b6⟩
/-- Ethernet source address (R60). -/
def Layout.ethSrc : FieldAt := ⟨6, .b6⟩
/-- Ethertype (R60). -/
def Layout.ethType : FieldAt := ⟨12, .b2⟩
/-- IPv4 version and IHL (R61). -/
def Layout.ipVihl : FieldAt := ⟨0, .b1⟩
/-- IPv4 total length (R61). -/
def Layout.ipTotlen : FieldAt := ⟨2, .b2⟩
/-- IPv4 protocol (R61). -/
def Layout.ipProto : FieldAt := ⟨9, .b1⟩
/-- IPv4 source address (R61). -/
def Layout.ipSrc : FieldAt := ⟨12, .b4⟩
/-- IPv4 destination address (R61). -/
def Layout.ipDst : FieldAt := ⟨16, .b4⟩
/-- TCP source port (R62). -/
def Layout.tcpSport : FieldAt := ⟨0, .b2⟩
/-- TCP destination port (R62). -/
def Layout.tcpDport : FieldAt := ⟨2, .b2⟩
/-- TCP sequence number (R62). -/
def Layout.tcpSeq : FieldAt := ⟨4, .b4⟩
/-- TCP acknowledgment number (R62). -/
def Layout.tcpAck : FieldAt := ⟨8, .b4⟩
/-- TCP data-offset byte (R62). -/
def Layout.tcpDoff : FieldAt := ⟨12, .b1⟩
/-- TCP flags byte (R62, R63). -/
def Layout.tcpFlags : FieldAt := ⟨13, .b1⟩
/-- TCP window (R62). -/
def Layout.tcpWin : FieldAt := ⟨14, .b2⟩

/-! ## The flag table -/

/-- The flags in display order (30_encoding.md R67, 90_conflicts.md C1). -/
def Flag.all : List Flag := [.syn, .ack, .fin, .rst, .psh, .urg]

/-- A flag's index in display order, its bit of `FLAGSET` (R67). -/
def Flag.index : Flag → Nat
  | .syn => 0
  | .ack => 1
  | .fin => 2
  | .rst => 3
  | .psh => 4
  | .urg => 5

/-- A flag's mask in the TCP flags byte (R63, R67). -/
def Flag.mask : Flag → Byte
  | .syn => 0x02
  | .ack => 0x10
  | .fin => 0x01
  | .rst => 0x04
  | .psh => 0x08
  | .urg => 0x20

/-- A flag's name (R67). -/
def Flag.name : Flag → String
  | .syn => "SYN"
  | .ack => "ACK"
  | .fin => "FIN"
  | .rst => "RST"
  | .psh => "PSH"
  | .urg => "URG"

/-- The bit test of a flag: "bit test, not equality against the whole byte" (R66, R161). -/
def Flag.test (flags : Byte) (f : Flag) : Bool := (flags &&& f.mask) != 0

/-- The table row that drives a flag's bit of `FLAGSET`. -/
def Flag.row : Flag → Instr
  | .syn => .flagSyn
  | .ack => .flagAck
  | .fin => .flagFin
  | .rst => .flagRst
  | .psh => .flagPsh
  | .urg => .flagUrg

/-! ## The decoder -/

/-- Why a byte string is no operation word. -/
inductive DecodeError where
  | truncated
  | unknownSelector (b : Byte)
  | ethertypeSkips (code : Nat)
  | protocolSkips (code : Nat)
  | noNamedFlag (code : Byte)
  | statusSelectsNothing (code : Byte)
  | unknownOperation (code : Byte)
  | badReport
  deriving DecidableEq, Repr

/-- What a decoder answers: the operation and the bytes after it, or a rejection by name. -/
inductive Decoded where
  | ok (i : Instr) (rest : List Byte)
  | rejected (e : DecodeError)
  deriving DecidableEq, Repr

/-- The operation of an answer, if it is one. -/
def Decoded.instr? : Decoded → Option Instr
  | .ok i _ => some i
  | .rejected _ => none

/-- The first `n` bytes as an unsigned value, and the rest. -/
def takeValue (n : Nat) (bs : List Byte) : Option (Nat × List Byte) :=
  if n ≤ bs.length then some (beValue (bs.take n), bs.drop n) else none

/-- The ethertype selector: 0x0800 selects the IPv4 stage, any other value skips (R66). -/
def decodeEthertype (bs : List Byte) : Decoded :=
  match takeValue 2 bs with
  | none => .rejected .truncated
  | some (v, rest) =>
    if v = Config.ethertypeIpv4.toNat then .ok .ipv4Parse rest else .rejected (.ethertypeSkips v)

/-- The protocol selector: 6 selects the TCP stage, any other value skips (R66). -/
def decodeProtocol (bs : List Byte) : Decoded :=
  match takeValue 1 bs with
  | none => .rejected .truncated
  | some (v, rest) =>
    if v = Config.ipProtoTcp.toNat then .ok .tcpParse rest else .rejected (.protocolSkips v)

/-- The rows a flags byte selects, in display order: one bit test each (R66, R67). -/
def flagRows (flags : Byte) : List Instr := (Flag.all.filter (Flag.test flags)).map Flag.row

/-- The flags selector. Several bits may be set, and each selects its own row (`flagRows`; R161 makes them all in
display order); an operation word names one operation, and the one a word with several bits names is the first of those
rows in display order (DESIGN CHOICE, safe: notes/assumptions/10.md). -/
def decodeFlagByte : List Byte → Decoded
  | [] => .rejected .truncated
  | b :: rest =>
    match flagRows b with
    | [] => .rejected (.noNamedFlag b)
    | i :: _ => .ok i rest

/-- The status selector: 0x00 selects the delivery of the report, 0xC1 is the halt (spec/opcode_table.json). -/
def decodeStatus : List Byte → Decoded
  | [] => .rejected .truncated
  | b :: rest =>
    if b = 0x00 then .ok .emitReport rest
    else if b = 0xC1 then .ok .captureError rest
    else .rejected (.statusSelectsNothing b)

/-- The operand of `DEC_TEXT`: a count of bytes, then the integer. -/
def decodeInteger : List Byte → Option (Nat × List Byte)
  | [] => none
  | n :: rest => takeValue n.toNat rest

/-- The operand of `RENDER_TEXT`: the thirteen fields of a record in the order of R21. -/
def decodeReport (bs : List Byte) : Option (PacketReport × List Byte) :=
  match takeValue 4 bs with
  | none => none
  | some (ipSrc, bs) =>
  match takeValue 4 bs with
  | none => none
  | some (ipDst, bs) =>
  match takeValue 2 bs with
  | none => none
  | some (ipTotalLength, bs) =>
  match takeValue 2 bs with
  | none => none
  | some (srcPort, bs) =>
  match takeValue 2 bs with
  | none => none
  | some (dstPort, bs) =>
  match takeValue 4 bs with
  | none => none
  | some (seq, bs) =>
  match takeValue 4 bs with
  | none => none
  | some (ack, bs) =>
  match takeValue 1 bs with
  | none => none
  | some (headerLen, bs) =>
  match takeValue 2 bs with
  | none => none
  | some (window, bs) =>
  match takeValue 1 bs with
  | none => none
  | some (flags, bs) =>
  match takeValue 2 bs with
  | none => none
  | some (payloadLen, bs) =>
  match takeValue 1 bs with
  | none => none
  | some (previewLen, bs) =>
    if headerLen < 64 ∧ flags < 64 ∧ previewLen ≤ Config.previewMax ∧ previewLen ≤ bs.length then
      some
        ({ ipSrc := BitVec.ofNat 32 ipSrc
           ipDst := BitVec.ofNat 32 ipDst
           ipTotalLength := BitVec.ofNat 16 ipTotalLength
           srcPort := BitVec.ofNat 16 srcPort
           dstPort := BitVec.ofNat 16 dstPort
           seq := BitVec.ofNat 32 seq
           ack := BitVec.ofNat 32 ack
           headerLen := BitVec.ofNat 6 headerLen
           window := BitVec.ofNat 16 window
           flags := BitVec.ofNat 6 flags
           payloadLen := BitVec.ofNat 16 payloadLen
           previewLen := BitVec.ofNat 7 previewLen
           preview := bs.take previewLen }, bs.drop previewLen)
    else none

/-- The wired operations that carry no operand, by their row of spec/opcode_table.json, counted from 0. -/
def wiredRow : Nat → Option Instr
  | 0 => some .framePass
  | 1 => some .run
  | 2 => some .nextFrame
  | 4 => some .emitDiag
  | 6 => some .ethParse
  | 7 => some .ethLenchk
  | 8 => some .ethDst
  | 9 => some .ethSrc
  | 10 => some .ethType
  | 11 => some .ethRest
  | 12 => some .ethDispatch
  | 14 => some .ipLenchk
  | 15 => some .ipVihl
  | 16 => some .ipHlen
  | 17 => some .ipHlenchk
  | 18 => some .ipTotlen
  | 19 => some .ipProto
  | 20 => some .ipSrc
  | 21 => some .ipDst
  | 22 => some .ipSlice
  | 23 => some .ipDispatch
  | 25 => some .tcpLenchk
  | 26 => some .tcpSport
  | 27 => some .tcpDport
  | 28 => some .tcpSeq
  | 29 => some .tcpAck
  | 30 => some .tcpDoff
  | 31 => some .tcpDoffmin
  | 32 => some .tcpHlenchk
  | 33 => some .tcpFlags
  | 34 => some .tcpWin
  | 35 => some .tcpFlagset
  | 42 => some .tcpPayload
  | 43 => some .render
  | 44 => some .reportAssemble
  | 45 => some .previewLen
  | 47 => some .previewBuild
  | _ => none

/-- The wired operations: the row number, then the operand's bytes where the row carries one. -/
def decodeWired : List Byte → Decoded
  | [] => .rejected .truncated
  | b :: rest =>
    if b.toNat = 46 then
      match rest with
      | [] => .rejected .truncated
      | c :: rest => .ok (.previewChar c) rest
    else if b.toNat = 48 then
      match takeValue 1 rest with
      | none => .rejected .truncated
      | some (v, rest) => if v < 64 then .ok (.flagsText (BitVec.ofNat 6 v)) rest else .rejected .badReport
    else if b.toNat = 49 then
      match takeValue 4 rest with
      | none => .rejected .truncated
      | some (v, rest) => .ok (.ipv4Text (BitVec.ofNat 32 v)) rest
    else if b.toNat = 50 then
      match decodeInteger rest with
      | none => .rejected .truncated
      | some (v, rest) => .ok (.decText v) rest
    else if b.toNat = 51 then
      match decodeReport rest with
      | none => .rejected .badReport
      | some (r, rest) => .ok (.renderText r) rest
    else
      match wiredRow b.toNat with
      | none => .rejected (.unknownOperation b)
      | some i => .ok i rest

/-- The decoder of operation words: total on any bytes, rejecting by name. -/
def decode : List Byte → Decoded
  | [] => .rejected .truncated
  | sel :: rest =>
    if sel = 0 then decodeWired rest
    else if sel = 1 then decodeEthertype rest
    else if sel = 2 then decodeProtocol rest
    else if sel = 3 then decodeFlagByte rest
    else if sel = 4 then decodeStatus rest
    else .rejected (.unknownSelector sel)

/-- The operation a bare dispatch code stands for, the code given as the opcode table numbers its bits. A 16-bit code is
an ethertype. An 8-bit code is looked up as a status code, then as a protocol, both equalities on the whole byte, and
then by the single-bit tests of the flags (notes/assumptions/10.md says why this order). -/
def decodeTableWord (nbits w : Nat) : Option Instr :=
  if nbits = 16 then (decode (1 :: beBytes 2 w)).instr?
  else if nbits = 8 then
    match (decode (4 :: beBytes 1 w)).instr? with
    | some i => some i
    | none =>
      match (decode (2 :: beBytes 1 w)).instr? with
      | some i => some i
      | none => (decode (3 :: beBytes 1 w)).instr?
  else none

/-! ## The encoder -/

/-- A record's bytes, in the order of R21. -/
def encodeReport (r : PacketReport) : List Byte :=
  beBytes 4 r.ipSrc.toNat ++ (beBytes 4 r.ipDst.toNat ++ (beBytes 2 r.ipTotalLength.toNat ++
  (beBytes 2 r.srcPort.toNat ++ (beBytes 2 r.dstPort.toNat ++ (beBytes 4 r.seq.toNat ++ (beBytes 4 r.ack.toNat ++
  (beBytes 1 r.headerLen.toNat ++ (beBytes 2 r.window.toNat ++ (beBytes 1 r.flags.toNat ++
  (beBytes 2 r.payloadLen.toNat ++ (beBytes 1 r.previewLen.toNat ++ r.preview)))))))))))

/-- The word of an operation. -/
def encode : Instr → List Byte
  | .framePass => [0, 0]
  | .run => [0, 1]
  | .nextFrame => [0, 2]
  | .emitReport => [4, 0x00]
  | .emitDiag => [0, 4]
  | .captureError => [4, 0xC1]
  | .ethParse => [0, 6]
  | .ethLenchk => [0, 7]
  | .ethDst => [0, 8]
  | .ethSrc => [0, 9]
  | .ethType => [0, 10]
  | .ethRest => [0, 11]
  | .ethDispatch => [0, 12]
  | .ipv4Parse => [1, 0x08, 0x00]
  | .ipLenchk => [0, 14]
  | .ipVihl => [0, 15]
  | .ipHlen => [0, 16]
  | .ipHlenchk => [0, 17]
  | .ipTotlen => [0, 18]
  | .ipProto => [0, 19]
  | .ipSrc => [0, 20]
  | .ipDst => [0, 21]
  | .ipSlice => [0, 22]
  | .ipDispatch => [0, 23]
  | .tcpParse => [2, 0x06]
  | .tcpLenchk => [0, 25]
  | .tcpSport => [0, 26]
  | .tcpDport => [0, 27]
  | .tcpSeq => [0, 28]
  | .tcpAck => [0, 29]
  | .tcpDoff => [0, 30]
  | .tcpDoffmin => [0, 31]
  | .tcpHlenchk => [0, 32]
  | .tcpFlags => [0, 33]
  | .tcpWin => [0, 34]
  | .tcpFlagset => [0, 35]
  | .flagSyn => [3, 0x02]
  | .flagAck => [3, 0x10]
  | .flagFin => [3, 0x01]
  | .flagRst => [3, 0x04]
  | .flagPsh => [3, 0x08]
  | .flagUrg => [3, 0x20]
  | .tcpPayload => [0, 42]
  | .render => [0, 43]
  | .reportAssemble => [0, 44]
  | .previewLen => [0, 45]
  | .previewChar b => [0, 46, b]
  | .previewBuild => [0, 47]
  | .flagsText f => [0, 48] ++ beBytes 1 f.toNat
  | .ipv4Text a => [0, 49] ++ beBytes 4 a.toNat
  | .decText v => [0, 50, BitVec.ofNat 8 (byteCount v)] ++ beBytes (byteCount v) v
  | .renderText r => [0, 51] ++ encodeReport r

/-! ## The reference frame encoder -/

/-- The Ethernet header of a reference frame (R60, R74). -/
def FrameSpec.ethHeader (f : FrameSpec) : List Byte :=
  beBytes 6 f.ethDst.toNat ++ beBytes 6 f.ethSrc.toNat ++ [0x08, 0x00]

/-- The total length of a reference frame's packet (R74). -/
def FrameSpec.totalLength (f : FrameSpec) : Nat :=
  20 + f.ipOptions.length + 20 + f.tcpOptions.length + f.payload.length

/-- The IPv4 header of a reference frame (R61, R74). -/
def FrameSpec.ipHeader (f : FrameSpec) : List Byte :=
  [BitVec.ofNat 8 (0x40 + 5 + f.ipOptions.length / 4), f.tos] ++ beBytes 2 f.totalLength
    ++ beBytes 2 f.ident.toNat ++ beBytes 2 f.fragment.toNat ++ [f.ttl, 0x06] ++ beBytes 2 f.ipChecksum.toNat
    ++ beBytes 4 f.ipSrc.toNat ++ beBytes 4 f.ipDst.toNat ++ f.ipOptions

/-- The TCP header of a reference frame (R62, R74). -/
def FrameSpec.tcpHeader (f : FrameSpec) : List Byte :=
  beBytes 2 f.srcPort.toNat ++ beBytes 2 f.dstPort.toNat ++ beBytes 4 f.seq.toNat ++ beBytes 4 f.ack.toNat
    ++ [BitVec.ofNat 8 ((5 + f.tcpOptions.length / 4) * 16 + f.reserved.toNat), f.flags] ++ beBytes 2 f.window.toNat
    ++ beBytes 2 f.tcpChecksum.toNat ++ beBytes 2 f.urgent.toNat ++ f.tcpOptions

/-- The bytes of a reference frame (30_encoding.md R74). -/
def encodeFrame (f : FrameSpec) : List Byte :=
  f.ethHeader ++ f.ipHeader ++ f.tcpHeader ++ f.payload ++ f.trailing

end Sys2Proof
end

