-- ==== Sys2Proof/Machine/State.lean ====
section
/-! DEFINITION. The block's whole state (10_state.md R10 to R21), the host's free inputs and what the channels have
carried (44_frame_pass_and_host.md R231 to R241), as plain data; and the state right after reset (R26, R280). -/

namespace Sys2Proof.Machine

/-- `LOOP` (R12). -/
inductive LoopState where
  | running
  | halted
  deriving DecidableEq, Repr

/-- `STAGE`, the block's counterpart of a program counter (R13). -/
inductive Stage where
  | idle
  | eth
  | ip
  | tcp
  | render
  deriving DecidableEq, Repr

/-- The value a capture error carries: an uninterpreted token (R235, U9; notes/assumptions/13.md). -/
structure SourceError where
  token : Nat
  deriving DecidableEq, Repr

/-- One answer of the capture source to a request (R232). -/
inductive SourceAnswer where
  | frame (bytes : List Byte)
  | error (e : SourceError)
  deriving DecidableEq, Repr

/-- How the report sink treats one record it is offered (R233, R286, U7; notes/assumptions/7.md): it takes it after some
further turns of the block, or it never takes it. -/
inductive SinkTurn where
  | takesAfter (turns : Nat)
  | never
  deriving DecidableEq, Repr

/-- The causes of an outcome: the twelve rows of R251 and no others (U11). -/
inductive Cause where
  | report
  | ethertype
  | protocol
  | ethShort
  | ipShort
  | ipIhlLtMin
  | ipIhlGtBuf
  | ipTotlenLtHlen
  | tcpShort
  | tcpDoffLtMin
  | tcpDoffGtBuf
  | captureError
  deriving DecidableEq, Repr

/-- A byte-addressed memory: (address, byte) pairs, addresses strictly rising. An address that is not listed has no
value (notes/assumptions/3.md). -/
abbrev Memory := List Host.Cell

/-- The preview buffer `PV[0..63]`, "the block's only other register file" (R19). -/
abbrev Preview := Vector Byte 64

/-- The stage registers, valid inside one pass (R14 to R19, R21, R284). -/
structure Regs where
  ipOff : Nat
  ipLen : Nat
  ipHlen : Nat
  segOff : Nat
  segLen : Nat
  tcpHlen : Nat
  payOff : Nat
  payLen : Nat
  ethDst : Mac
  ethSrc : Mac
  ethType : Half
  ipVihl : Byte
  ipTotlen : Half
  ipProto : Byte
  ipSrc : Word
  ipDst : Word
  tcpSport : Half
  tcpDport : Half
  tcpSeq : Word
  tcpAck : Word
  tcpDoff : BitVec 4
  tcpFlags : Byte
  tcpWin : Half
  flagset : BitVec 6
  pvLen : BitVec 7
  report : PacketReport
  deriving DecidableEq, Repr

/-- Why an operation stops. None is reachable in a run (R45, R47, R256). -/
inductive Fault where
  /-- A `MemRead` of `bytes` bytes at `addr` reaches beyond `L`, beyond what the frame buffer holds, or beyond the slice
  the stage is handed (R45, R53, U4). Raised by the field extractions and by `PREVIEW.BUILD`. Safe: the spec asks for a
  fault there. -/
  | outOfBounds (addr bytes : Nat)
  /-- An access to the preview space at an address it does not have: it ends at `PV[63]` (R40, R47). Raised by
  `PREVIEW.BUILD` and `REPORT.ASSEMBLE` with `PV_LEN` above 64, which R19 excludes. Safe. -/
  | previewOutOfRange (addr : Nat)
  deriving DecidableEq, Repr

/-- Why an operation is refused. -/
inductive Refusal where
  /-- The row has no meaning yet. Raised by no arm: every row of the table has its meaning. Safe. -/
  | notModelled (mnemonic : String)
  deriving DecidableEq, Repr

/-- The machine's state: the block's (R10), the host's free inputs, what the channels have carried, and the model's own
fields `op`, `epoch`, `charOut`, `textOut` (notes/assumptions/1.md, 2.md, 12.md). -/
structure State where
  /-- `LOOP` (R12). -/
  loop : LoopState
  /-- `STAGE` (R13). -/
  stage : Stage
  /-- MODEL: the operation the wired sequence makes next; none is the loop's own `NEXT_FRAME` request. -/
  op : Option Instr
  /-- Whether a frame is in flight (R26, R237). -/
  inFlight : Bool
  /-- `FB` (R11). -/
  fb : Memory
  /-- `L` (R11). -/
  len : Nat
  /-- The stage registers and the record (R14 to R19, R21). -/
  regs : Regs
  /-- `PV` (R19, R40). -/
  pv : Preview
  /-- `STATUS` (R20). -/
  status : Byte
  /-- The record offered on `REPORT_OUT` and not yet taken by the sink, if there is one (R26, R280, R286). -/
  pending : Option PacketReport
  /-- FREE INPUT: how the sink treats the records still to be offered, in order; beyond the list it takes each at once
  (R233, R286, U7). -/
  sink : List SinkTurn
  /-- The records `REPORT_OUT` has carried, oldest first (R233). -/
  reportOut : List PacketReport
  /-- The codes `DIAG_OUT` has carried, oldest first (R234). -/
  diagOut : List Byte
  /-- The error values surfaced to the host, oldest first (R235). -/
  errorOut : List SourceError
  /-- FREE INPUT: the answers the capture source has still to give, in order (R9, R231, D2). -/
  answers : List SourceAnswer
  /-- The source's error answer to the last request, if it answered one (R232, R235). -/
  sourceError : Option SourceError
  /-- FREE INPUT: when the host asserts reset: how many operations go before each assertion (R280). -/
  resetIn : List Nat
  /-- MODEL: the counter that indexes the free values (R24, U1, U2). -/
  epoch : Nat
  /-- MODEL: the byte `PREVIEW.CHAR` yields when it is made by itself (R193). -/
  charOut : Byte
  /-- MODEL: the text a text operation yields, as ASCII bytes (R195 to R198). -/
  textOut : List Byte
  deriving DecidableEq, Repr

/-- The stage registers while they hold no value: a free value each (R24, R26, U1, U2; notes/assumptions/2.md). `PV_LEN`
is "a 7-bit count from 0 to 64" (R19), so its free value is one of those. -/
def Regs.unwritten (epoch : Nat) : Regs where
  ipOff := Config.unwrittenNat .ipOff epoch
  ipLen := Config.unwrittenNat .ipLen epoch
  ipHlen := Config.unwrittenNat .ipHlen epoch
  segOff := Config.unwrittenNat .segOff epoch
  segLen := Config.unwrittenNat .segLen epoch
  tcpHlen := Config.unwrittenNat .tcpHlen epoch
  payOff := Config.unwrittenNat .payOff epoch
  payLen := Config.unwrittenNat .payLen epoch
  ethDst := Config.unwrittenBits 48 .ethDst epoch
  ethSrc := Config.unwrittenBits 48 .ethSrc epoch
  ethType := Config.unwrittenBits 16 .ethType epoch
  ipVihl := Config.unwrittenBits 8 .ipVihl epoch
  ipTotlen := Config.unwrittenBits 16 .ipTotlen epoch
  ipProto := Config.unwrittenBits 8 .ipProto epoch
  ipSrc := Config.unwrittenBits 32 .ipSrc epoch
  ipDst := Config.unwrittenBits 32 .ipDst epoch
  tcpSport := Config.unwrittenBits 16 .tcpSport epoch
  tcpDport := Config.unwrittenBits 16 .tcpDport epoch
  tcpSeq := Config.unwrittenBits 32 .tcpSeq epoch
  tcpAck := Config.unwrittenBits 32 .tcpAck epoch
  tcpDoff := Config.unwrittenBits 4 .tcpDoff epoch
  tcpFlags := Config.unwrittenBits 8 .tcpFlags epoch
  tcpWin := Config.unwrittenBits 16 .tcpWin epoch
  flagset := Config.unwrittenBits 6 .flagset epoch
  pvLen := BitVec.ofNat 7 ((Config.unwrittenBits 7 .pvLen epoch).toNat % 65)
  report := Config.unwrittenReport epoch

/-- The preview buffer while it holds no value: a free value for each byte (R19, R26, U1; notes/assumptions/4.md). -/
def Preview.unwritten (epoch : Nat) : Preview := Vector.ofFn (fun i => Config.unwrittenPreview i.val epoch)

/-- The machine right after reset (10_state.md R26, 70_reset_and_hazards.md R280): the loop runs, no frame is in flight,
nothing is pending, and every other register is unspecified. The free inputs are empty: the source has answered nothing
yet, the sink takes what it is offered, and no further reset is asserted. -/
def State.reset : State where
  loop := .running
  stage := .idle
  op := none
  inFlight := false
  fb := []
  len := Config.unwrittenNat .len 0
  regs := Regs.unwritten 0
  pv := Preview.unwritten 0
  status := Config.unwrittenBits 8 .status 0
  pending := none
  sink := []
  reportOut := []
  diagOut := []
  errorOut := []
  answers := []
  sourceError := none
  resetIn := []
  epoch := 1
  charOut := Config.unwrittenBits 8 .charOut 0
  textOut := []

end Sys2Proof.Machine
end

