-- ==== Sys2Proof/Machine/Flags.lean ====
section
/-! DEFINITION. The flag computations: the six-bit flag set (42_tcp_dissector.md R161) and the block's only
condition-code-like state, the status code (30_encoding.md R72, 60_exceptions.md R251). -/

namespace Sys2Proof.Machine

/-! ## The flag set -/

/-- `FLAGSET[k] <- b` (R161). -/
def setFlagBit (fs : BitVec 6) (k : Nat) (b : Bool) : BitVec 6 :=
  if b then fs ||| ((1 : BitVec 6) <<< k) else fs &&& ~~~((1 : BitVec 6) <<< k)

/-- One row of the flag table: the flag's bit of `FLAGSET` becomes its bit test of the flags byte (R161, R67). -/
def decodeFlag (flags : Byte) (fs : BitVec 6) (f : Flag) : BitVec 6 :=
  setFlagBit fs f.index (f.test flags)

/-- All six rows, in display order (R161, R67). Every bit is written, so what the register held before does not matter
and the fold starts from the empty set. -/
def decodeFlags (flags : Byte) : BitVec 6 :=
  Flag.all.foldl (decodeFlag flags) 0

/-- The flags of a set, in display order (R195). -/
def flagsIn (fs : BitVec 6) : List Flag := Flag.all.filter (fun f => fs.getLsbD f.index)

/-! ## Status codes -/

/-- The class field of a cause's code, bits 7:6 (R72): 0 report, 1 skip, 2 malformed, 3 capture error. -/
def Cause.classField : Cause → BitVec 2
  | .report => 0
  | .ethertype | .protocol => 1
  | .ethShort | .ipShort | .ipIhlLtMin | .ipIhlGtBuf | .ipTotlenLtHlen | .tcpShort | .tcpDoffLtMin | .tcpDoffGtBuf => 2
  | .captureError => 3

/-- The stage field, bits 5:4 (R72): 0 none, 1 Ethernet, 2 IPv4, 3 TCP. -/
def Cause.stageField : Cause → BitVec 2
  | .report | .captureError => 0
  | .ethertype | .ethShort => 1
  | .protocol | .ipShort | .ipIhlLtMin | .ipIhlGtBuf | .ipTotlenLtHlen => 2
  | .tcpShort | .tcpDoffLtMin | .tcpDoffGtBuf => 3

/-- The cause field, bits 3:0 (R72, R251). -/
def Cause.number : Cause → BitVec 4
  | .report => 0
  | .ethertype | .protocol | .ethShort | .ipShort | .tcpShort | .captureError => 1
  | .ipIhlLtMin | .tcpDoffLtMin => 2
  | .ipIhlGtBuf | .tcpDoffGtBuf => 3
  | .ipTotlenLtHlen => 4

/-- A cause's status code (R251), put together from its three fields (R72). -/
def Cause.code (c : Cause) : Byte := c.classField ++ c.stageField ++ c.number

/-- The causes, in the order of R251's table. -/
def Cause.all : List Cause :=
  [.report, .ethertype, .protocol, .ethShort, .ipShort, .ipIhlLtMin, .ipIhlGtBuf, .ipTotlenLtHlen, .tcpShort,
   .tcpDoffLtMin, .tcpDoffGtBuf, .captureError]

/-- Bits 7:6 of a status code (R72). -/
def statusClass (code : Byte) : BitVec 2 := BitVec.extractLsb' 6 2 code
/-- Bits 5:4 of a status code (R72). -/
def statusStage (code : Byte) : BitVec 2 := BitVec.extractLsb' 4 2 code
/-- Bits 3:0 of a status code (R72). -/
def statusCause (code : Byte) : BitVec 4 := BitVec.extractLsb' 0 4 code

/-! ## The encodings of the two control states -/

/-- The value of `LOOP` (R12). -/
def LoopState.code : LoopState → BitVec 1
  | .running => 0
  | .halted => 1

/-- The value of `STAGE` (R13). -/
def Stage.code : Stage → Nat
  | .idle => 0
  | .eth => 1
  | .ip => 2
  | .tcp => 3
  | .render => 4

end Sys2Proof.Machine
end

