-- ==== Sys2Proof/Machine/Ops.lean ====
section
/-! DEFINITION. The named operations over the two memories and the registers (20_memory.md), the result type of a stage
operation (00_scope.md R8), the end of a pass, the taking of an exceptional outcome (60_exceptions.md R253), the halt
(R235), and reset (R280). -/

namespace Sys2Proof.Machine

/-! ## Memory -/

/-- The byte at an address, if the memory lists one. -/
def Memory.read : Memory → Nat → Option Byte
  | [], _ => none
  | (a, b) :: rest, addr => if a = addr then some b else Memory.read rest addr

/-- Store a byte: the address is listed once, in its place. -/
def Memory.write : Memory → Nat → Byte → Memory
  | [], addr, v => [(addr, v)]
  | (a, b) :: rest, addr, v =>
    if addr < a then (addr, v) :: (a, b) :: rest
    else if addr = a then (addr, v) :: rest
    else (a, b) :: Memory.write rest addr v

/-- A byte string laid out from an address on. -/
def Memory.ofBytesFrom : Nat → List Byte → Memory
  | _, [] => []
  | a, b :: bs => (a, b) :: Memory.ofBytesFrom (a + 1) bs

/-- A byte string laid out from address 0: what the capture source writes into `FB` (R232). -/
def Memory.ofBytes (bs : List Byte) : Memory := Memory.ofBytesFrom 0 bs

/-- The canonical form: addresses strictly rising. An unlisted address has no value, so no entry can equal it. -/
def Memory.wf : Memory → Bool
  | [] => true
  | [_] => true
  | (a, _) :: (b, y) :: rest => decide (a < b) && Memory.wf ((b, y) :: rest)

/-- The `n` bytes from an address on, if the memory lists them all. -/
def Memory.readBytes (m : Memory) : Nat → Nat → Option (List Byte)
  | _, 0 => some []
  | addr, n + 1 =>
    match Memory.read m addr, Memory.readBytes m (addr + 1) n with
    | some b, some bs => some (b :: bs)
    | _, _ => none

/-! ## Results of a stage operation -/

/-- What a stage operation answers (00_scope.md R8): it goes on, it raises a cause, or (never in a run) it faults. -/
inductive Flow where
  | ok (s : State)
  | raised (c : Cause) (s : State)
  | fault (f : Fault)
  deriving DecidableEq, Repr

/-- The next operation of a sequence, made only if the one before it went on (R100, R120, R150). -/
def Flow.andThen (r : Flow) (k : State → Flow) : Flow :=
  match r with
  | .ok s => k s
  | .raised c s => .raised c s
  | .fault f => .fault f

/-- Operations in their order: "each completing before the next begins; the first that raises ends the stage" (R100). -/
def runOps : List (State → Flow) → State → Flow
  | [], s => .ok s
  | f :: fs, s => (f s).andThen (runOps fs)

/-! ## The primitives of 00_scope.md R7 -/

/-- `MemRead(addr, n)` (20_memory.md R41): the value of `n` bytes, first byte most significant; none beyond `L` (R45). -/
def memRead (s : State) (addr : Nat) (w : Width) : Option Nat :=
  if addr + w.bytes ≤ s.len then (Memory.readBytes s.fb addr w.bytes).map beValue else none

/-- `MemRead(addr, n)` by a stage handed the slice `(off, len)`, which "reads only inside the slice it was handed" (R53):
none beyond the slice or beyond `L` (R45, 93_implementation_defined.md U4). -/
def memReadIn (s : State) (off len addr : Nat) (w : Width) : Option Nat :=
  if off ≤ addr ∧ addr + w.bytes ≤ off + len then memRead s addr w else none

/-- `MemWrite(addr, 1, v)` (20_memory.md R47): `PV[addr] <- v`. -/
def memWrite (s : State) (addr : Nat) (v : Byte) : Flow :=
  if h : addr < 64 then .ok { s with pv := s.pv.set addr v h } else .fault (.previewOutOfRange addr)

/-- Write of stage registers. -/
def State.putRegs (s : State) (r : Regs) : State := { s with regs := r }

/-- `STAGE <- g` (R13). -/
def State.putStage (s : State) (g : Stage) : State := { s with stage := g }

/-- `STATUS <- c` (R20). -/
def State.putStatus (s : State) (c : Byte) : State := { s with status := c }

/-- The text a text operation yields. -/
def State.putText (s : State) (t : List Byte) : State := { s with textOut := t }

/-! ## The channels and the pass -/

/-- The capture source writes `L` and `FB[0..L-1]` together (R232): a frame is in flight. `STATUS`, which the host can read
between passes (R20, R23), does not survive into this one (R22): it holds a free value until the pass's outcome is decided
(notes/assumptions/18.md). -/
def State.loadFrame (s : State) (bs : List Byte) : State :=
  { s with
    fb := Memory.ofBytes bs
    len := bs.length
    inFlight := true
    status := Config.unwrittenBits 8 .status s.epoch
    epoch := s.epoch + 1 }

/-- The sink takes the record, by value (R233): nothing is pending any more. -/
def State.deliver (s : State) : State := { s with reportOut := s.reportOut ++ [s.regs.report], pending := none }

/-- The record is offered and the sink has not taken it: it is pending (R286), in the place of a record an operation made
out of its place may have left there (DESIGN CHOICE: notes/assumptions/17.md). -/
def State.offer (s : State) : State := { s with pending := some s.regs.report }

/-- One turn of `emit REPORT_OUT(r)` (R233, R286): the sink takes the record, or the block waits with the record pending
(notes/assumptions/7.md). -/
def State.emitReport (s : State) : State :=
  match s.sink with
  | [] => s.deliver
  | .takesAfter 0 :: rest => { s.deliver with sink := rest }
  | .takesAfter (n + 1) :: rest => { s.offer with sink := .takesAfter n :: rest }
  | .never :: _ => s.offer

/-- `emit REPORT_OUT(r)` as a whole, all its turns together: the record is taken, or, by a sink that never takes it, left
pending with the block waiting in `EMIT_REPORT` for ever (R286, U7; notes/assumptions/7.md). -/
def State.handOver (s : State) : State :=
  match s.sink with
  | [] => s.deliver
  | .takesAfter _ :: rest => { s.deliver with sink := rest }
  | .never :: _ => { s.offer with op := some .emitReport }

/-- `emit DIAG_OUT(STATUS)` (R234). -/
def State.emitDiag (s : State) : State := { s with diagOut := s.diagOut ++ [s.status] }

/-- The end of a pass (R230, R253): `STAGE <- IDLE`, the frame is released, and the stage registers, the record and the
preview hold no value any more (R24, R200, U2; notes/assumptions/2.md, 5.md). `LOOP`, what the channels have carried and
the sink's turns stay; so does `STATUS`, the pass's code, until the next frame is answered (R20, R22, R23:
`State.loadFrame`, notes/assumptions/18.md). In a run nothing is pending here (R237); a record that an operation made
out of its place has left pending is dropped, and the sink's turn for it is not used up (DESIGN CHOICE, unsafe:
notes/assumptions/17.md). -/
def State.endPass (s : State) : State :=
  { s with
    stage := .idle
    inFlight := false
    fb := []
    len := Config.unwrittenNat .len s.epoch
    regs := Regs.unwritten s.epoch
    pv := Preview.unwritten s.epoch
    pending := none
    epoch := s.epoch + 1 }

/-- TAKING AN EXCEPTIONAL OUTCOME: what happens when `Malformed` or `Skip` is raised (R253): `STATUS` gets the cause's
code, the code goes out on `DIAG_OUT`, nothing goes out on `REPORT_OUT`, and the pass ends. There is no return
operation (R254): the loop's next request follows. -/
def takeRaise (c : Cause) (s : State) : State := ((s.putStatus c.code).emitDiag).endPass

/-- THE HALT (R235, R255): `LOOP <- HALTED`, 0xC1 to `STATUS` and `DIAG_OUT`, `STAGE <- IDLE`, and the error value to the
host unchanged. -/
def takeCaptureError (s : State) : State :=
  { ((s.putStatus Cause.captureError.code).emitDiag).putStage .idle with
    loop := .halted
    errorOut := s.errorOut ++ s.sourceError.toList }

/-- What an operation made by itself leaves: a raise is taken at once. -/
def settle : Flow → Host.Outcome State Fault Refusal
  | .ok s => .next s
  | .raised c s => .next (takeRaise c s)
  | .fault f => .fault f

/-! ## Reset -/

/-- RESET (R280), an atomic event at any moment: the values of R26; a pass in flight is abandoned with no output, and a
record still pending is dropped (U13), which uses up the sink's turn for it. What the channels have carried stays carried
(R255), and the host's free inputs are the host's (notes/assumptions/8.md). -/
def takeReset (s : State) : State :=
  { State.reset with
    len := Config.unwrittenNat .len s.epoch
    regs := Regs.unwritten s.epoch
    pv := Preview.unwritten s.epoch
    status := Config.unwrittenBits 8 .status s.epoch
    charOut := Config.unwrittenBits 8 .charOut s.epoch
    epoch := s.epoch + 1
    reportOut := s.reportOut
    diagOut := s.diagOut
    errorOut := s.errorOut
    answers := s.answers
    sink := if s.pending.isSome then s.sink.tail else s.sink
    resetIn := s.resetIn }

/-- The reset input at the next operation: asserted, or one operation nearer, or not planned. -/
inductive ResetLine where
  | asserted (s : State)
  | idle (s : State)

/-- Read the reset input (R280; notes/assumptions/8.md). -/
def readReset (s : State) : ResetLine :=
  match s.resetIn with
  | [] => .idle s
  | 0 :: rest => .asserted { s with resetIn := rest }
  | (n + 1) :: rest => .idle { s with resetIn := n :: rest }

end Sys2Proof.Machine
end

