-- ==== Sys2Proof/Machine/Operands.lean ====
section
/-! DEFINITION. The operand forms: a field of the Ethernet header at its frame offset, of the IPv4 header at 14 plus its
offset, of the TCP header at `SEG_OFF` plus its offset, a byte of the payload; and the tests that raise
(30_encoding.md R60 to R62, R64; 20_memory.md R45). -/

namespace Sys2Proof.Machine

/-- Read the frame inside the slice `(off, len)` and put the value in a register; a read beyond the slice or beyond `L`
faults (R45, R53, U4). -/
def readInto (off len addr : Nat) (w : Width) (put : Regs → Nat → Regs) (s : State) : Flow :=
  match memReadIn s off len addr w with
  | some v => .ok (s.putRegs (put s.regs v))
  | none => .fault (.outOfBounds addr w.bytes)

/-- A field of the Ethernet header (R60), in the slice `(0, L)`. -/
def readEth (f : FieldAt) (put : Regs → Nat → Regs) (s : State) : Flow :=
  readInto 0 s.len f.offset f.width put s

/-- A field of the IPv4 header, which starts at frame offset 14 (R61), in the slice `(IP_OFF, IP_LEN)`. -/
def readIp (f : FieldAt) (put : Regs → Nat → Regs) (s : State) : Flow :=
  readInto s.regs.ipOff s.regs.ipLen (Config.ethHdrLen + f.offset) f.width put s

/-- A field of the TCP header, which starts at `SEG_OFF` (R62), in the slice `(SEG_OFF, SEG_LEN)`. -/
def readTcp (f : FieldAt) (put : Regs → Nat → Regs) (s : State) : Flow :=
  readInto s.regs.segOff s.regs.segLen (s.regs.segOff + f.offset) f.width put s

/-- A test that raises: `if bad then raise c` (R101, R121, R151 and so on). -/
def raiseIf (bad : Bool) (c : Cause) (s : State) : Flow :=
  if bad then .raised c s else .ok s

/-- `name <- a - b` (R6): exact where the spec's guard holds, else a free value (notes/assumptions/15.md). -/
def guardedSub (name : Config.RegName) (a b : Nat) : Nat :=
  if b ≤ a then a - b else Config.unguarded name a b

/-- A register copied into a record field of `w` bits (R21): the number itself where it fits, else a free value
(notes/assumptions/15.md). -/
def narrow (w : Nat) (name : Config.RegName) (v : Nat) : BitVec w :=
  if v < 2 ^ w then BitVec.ofNat w v else Config.tooWide w name v

/-- `IHL`, the low nibble of the first byte of the IPv4 header (R65). -/
def ihl (s : State) : Nat := (lowNibble s.regs.ipVihl).toNat

end Sys2Proof.Machine
end

