-- ==== Sys2Proof/Machine/Ethernet.lean ====
section
/-! DEFINITION. The Ethernet stage (40_ethernet_classifier.md R100 to R106). For each operation, `op<Name>` is its
effect inside a sequence and `exec<Name>` its meaning when it is made by itself. -/

namespace Sys2Proof.Machine

/-- `ETH.LENCHK` (R101). -/
def opEthLenchk : State → Flow := fun s => raiseIf (s.len < Config.ethHdrLen) .ethShort s

/-- `ETH.DST` (R102): `ETH_DST <- MemRead(0, 6)`. -/
def opEthDst : State → Flow := readEth Layout.ethDst (fun r v => { r with ethDst := BitVec.ofNat 48 v })

/-- `ETH.SRC` (R103): `ETH_SRC <- MemRead(6, 6)`. -/
def opEthSrc : State → Flow := readEth Layout.ethSrc (fun r v => { r with ethSrc := BitVec.ofNat 48 v })

/-- `ETH.TYPE` (R104): `ETH_TYPE <- MemRead(12, 2)`. -/
def opEthType : State → Flow := readEth Layout.ethType (fun r v => { r with ethType := BitVec.ofNat 16 v })

/-- `ETH.REST` (R105): the slice `(14, L - 14)`. -/
def opEthRest : State → Flow := fun s =>
  .ok (s.putRegs { s.regs with ipOff := Config.ethHdrLen, ipLen := guardedSub .ipLen s.len Config.ethHdrLen })

/-- `ETH.DISPATCH` (R106): equality on all 16 bits, then `STAGE <- IP`. -/
def opEthDispatch : State → Flow := fun s =>
  (raiseIf (s.regs.ethType != Config.ethertypeIpv4) .ethertype s).andThen (fun t => .ok (t.putStage .ip))

/-- `ETH_PARSE` (R100): `STAGE <- ETH`, then the six operations in order. -/
def opEthParse : State → Flow := fun s =>
  runOps [opEthLenchk, opEthDst, opEthSrc, opEthType, opEthRest, opEthDispatch] (s.putStage .eth)

/-- Meaning of `ETH.LENCHK` (R101). -/
def execEthLenchk (s : State) : Host.Outcome State Fault Refusal := settle (opEthLenchk s)
/-- Meaning of `ETH.DST` (R102). -/
def execEthDst (s : State) : Host.Outcome State Fault Refusal := settle (opEthDst s)
/-- Meaning of `ETH.SRC` (R103). -/
def execEthSrc (s : State) : Host.Outcome State Fault Refusal := settle (opEthSrc s)
/-- Meaning of `ETH.TYPE` (R104). -/
def execEthType (s : State) : Host.Outcome State Fault Refusal := settle (opEthType s)
/-- Meaning of `ETH.REST` (R105). -/
def execEthRest (s : State) : Host.Outcome State Fault Refusal := settle (opEthRest s)
/-- Meaning of `ETH.DISPATCH` (R106). -/
def execEthDispatch (s : State) : Host.Outcome State Fault Refusal := settle (opEthDispatch s)
/-- Meaning of `ETH_PARSE` (R100). -/
def execEthParse (s : State) : Host.Outcome State Fault Refusal := settle (opEthParse s)

end Sys2Proof.Machine
end

