-- ==== Sys2Proof/Machine/Ipv4.lean ====
section
/-! DEFINITION. The IPv4 stage (41_ipv4_dissector.md R120 to R131). -/

namespace Sys2Proof.Machine

/-- `IP.LENCHK` (R121). -/
def opIpLenchk : State → Flow := fun s => raiseIf (s.regs.ipLen < Config.ipMinHdr) .ipShort s

/-- `IP.VIHL` (R122): `IP_VIHL <- MemRead(14, 1)`; the version is not tested. -/
def opIpVihl : State → Flow := readIp Layout.ipVihl (fun r v => { r with ipVihl := BitVec.ofNat 8 v })

/-- `IP.HLEN` (R123): IHL below 5 raises, else `IP_HLEN <- IHL * 4`. -/
def opIpHlen : State → Flow := fun s =>
  (raiseIf (ihl s < Config.ipMinIhl) .ipIhlLtMin s).andThen
    (fun t => .ok (t.putRegs { t.regs with ipHlen := ihl t * Config.wordBytes }))

/-- `IP.HLENCHK` (R124). -/
def opIpHlenchk : State → Flow := fun s => raiseIf (s.regs.ipLen < s.regs.ipHlen) .ipIhlGtBuf s

/-- `IP.TOTLEN` (R125): `IP_TOTLEN <- MemRead(16, 2)`. -/
def opIpTotlen : State → Flow := readIp Layout.ipTotlen (fun r v => { r with ipTotlen := BitVec.ofNat 16 v })

/-- `IP.PROTO` (R126): `IP_PROTO <- MemRead(23, 1)`. -/
def opIpProto : State → Flow := readIp Layout.ipProto (fun r v => { r with ipProto := BitVec.ofNat 8 v })

/-- `IP.SRC` (R127): `IP_SRC <- MemRead(26, 4)`. -/
def opIpSrc : State → Flow := readIp Layout.ipSrc (fun r v => { r with ipSrc := BitVec.ofNat 32 v })

/-- `IP.DST` (R128): `IP_DST <- MemRead(30, 4)`. -/
def opIpDst : State → Flow := readIp Layout.ipDst (fun r v => { r with ipDst := BitVec.ofNat 32 v })

/-- `IP.SLICE` (R129): a total length below the header length raises, else the slice is the smaller of the declared and
the remaining length. -/
def opIpSlice : State → Flow := fun s =>
  (raiseIf (s.regs.ipTotlen.toNat < s.regs.ipHlen) .ipTotlenLtHlen s).andThen
    (fun t => .ok (t.putRegs { t.regs with
      segOff := Config.ethHdrLen + t.regs.ipHlen
      segLen := min (t.regs.ipTotlen.toNat - t.regs.ipHlen) (guardedSub .segLen t.regs.ipLen t.regs.ipHlen) }))

/-- `IP.DISPATCH` (R130): equality on all 8 bits, then `STAGE <- TCP`. -/
def opIpDispatch : State → Flow := fun s =>
  (raiseIf (s.regs.ipProto != Config.ipProtoTcp) .protocol s).andThen (fun t => .ok (t.putStage .tcp))

/-- `IPV4_PARSE` (R120): the ten operations in order. -/
def opIpv4Parse : State → Flow :=
  runOps [opIpLenchk, opIpVihl, opIpHlen, opIpHlenchk, opIpTotlen, opIpProto, opIpSrc, opIpDst, opIpSlice, opIpDispatch]

/-- Meaning of `IP.LENCHK` (R121). -/
def execIpLenchk (s : State) : Host.Outcome State Fault Refusal := settle (opIpLenchk s)
/-- Meaning of `IP.VIHL` (R122). -/
def execIpVihl (s : State) : Host.Outcome State Fault Refusal := settle (opIpVihl s)
/-- Meaning of `IP.HLEN` (R123). -/
def execIpHlen (s : State) : Host.Outcome State Fault Refusal := settle (opIpHlen s)
/-- Meaning of `IP.HLENCHK` (R124). -/
def execIpHlenchk (s : State) : Host.Outcome State Fault Refusal := settle (opIpHlenchk s)
/-- Meaning of `IP.TOTLEN` (R125). -/
def execIpTotlen (s : State) : Host.Outcome State Fault Refusal := settle (opIpTotlen s)
/-- Meaning of `IP.PROTO` (R126). -/
def execIpProto (s : State) : Host.Outcome State Fault Refusal := settle (opIpProto s)
/-- Meaning of `IP.SRC` (R127). -/
def execIpSrc (s : State) : Host.Outcome State Fault Refusal := settle (opIpSrc s)
/-- Meaning of `IP.DST` (R128). -/
def execIpDst (s : State) : Host.Outcome State Fault Refusal := settle (opIpDst s)
/-- Meaning of `IP.SLICE` (R129). -/
def execIpSlice (s : State) : Host.Outcome State Fault Refusal := settle (opIpSlice s)
/-- Meaning of `IP.DISPATCH` (R130). -/
def execIpDispatch (s : State) : Host.Outcome State Fault Refusal := settle (opIpDispatch s)
/-- Meaning of `IPV4_PARSE` (R120). -/
def execIpv4Parse (s : State) : Host.Outcome State Fault Refusal := settle (opIpv4Parse s)

end Sys2Proof.Machine
end

