-- ==== Sys2Proof/Machine/Report.lean ====
section
/-! DEFINITION. The report stage (43_report_renderer.md R190 to R194, R199 to R201): the preview and the record. -/

namespace Sys2Proof.Machine

/-- `PreviewChar(b)` (R193). -/
def previewChar (b : Byte) : Byte :=
  if Config.printableLo.toNat ≤ b.toNat ∧ b.toNat ≤ Config.printableHi.toNat then b else Config.placeholder

/-- `PREVIEW.LEN` (R192): `PV_LEN <- min(PAY_LEN, 64)`. -/
def opPreviewLen : State → Flow := fun s =>
  .ok (s.putRegs { s.regs with pvLen := BitVec.ofNat 7 (min s.regs.payLen Config.previewMax) })

/-- One turn of the loop of R194: `MemWrite(i, 1, PreviewChar(MemRead(PAY_OFF + i, 1)))`, the read inside the slice
`(PAY_OFF, PAY_LEN)`. -/
def buildOne (i : Nat) (s : State) : Flow :=
  match memReadIn s s.regs.payOff s.regs.payLen (s.regs.payOff + i) .b1 with
  | some v => memWrite s i (previewChar (BitVec.ofNat 8 v))
  | none => .fault (.outOfBounds (s.regs.payOff + i) 1)

/-- The loop of R194, `n` turns from index `i` on. -/
def buildFrom : Nat → Nat → State → Flow
  | 0, _, s => .ok s
  | n + 1, i, s => (buildOne i s).andThen (buildFrom n (i + 1))

/-- `PREVIEW.BUILD` (R194). -/
def opPreviewBuild : State → Flow := fun s => buildFrom s.regs.pvLen.toNat 0 s

/-- `PV[0 .. n-1]` (R191), where the preview space has that many bytes (R40). -/
def readPreview (pv : Preview) (n : Nat) : Option (List Byte) :=
  if n ≤ Config.previewMax then some (pv.toList.take n) else none

/-- The record of R191: thirteen copies. -/
def assemble (r : Regs) (preview : List Byte) : PacketReport where
  ipSrc := r.ipSrc
  ipDst := r.ipDst
  ipTotalLength := r.ipTotlen
  srcPort := r.tcpSport
  dstPort := r.tcpDport
  seq := r.tcpSeq
  ack := r.tcpAck
  headerLen := narrow 6 .tcpHlen r.tcpHlen
  window := r.tcpWin
  flags := r.flagset
  payloadLen := narrow 16 .payLen r.payLen
  previewLen := r.pvLen
  preview := preview

/-- `REPORT.ASSEMBLE` (R191). -/
def opReportAssemble : State → Flow := fun s =>
  match readPreview s.pv s.regs.pvLen.toNat with
  | some preview => .ok (s.putRegs { s.regs with report := assemble s.regs preview })
  | none => .fault (.previewOutOfRange Config.previewMax)

/-- `RENDER` (R190): the preview length, the preview, the record, then `STATUS <- 0x00`. -/
def opRender : State → Flow := fun s =>
  (runOps [opPreviewLen, opPreviewBuild, opReportAssemble] s).andThen (fun t => .ok (t.putStatus Cause.report.code))

/-- Meaning of `RENDER` (R190). -/
def execRender (s : State) : Host.Outcome State Fault Refusal := settle (opRender s)
/-- Meaning of `REPORT.ASSEMBLE` (R191). -/
def execReportAssemble (s : State) : Host.Outcome State Fault Refusal := settle (opReportAssemble s)
/-- Meaning of `PREVIEW.LEN` (R192). -/
def execPreviewLen (s : State) : Host.Outcome State Fault Refusal := settle (opPreviewLen s)
/-- Meaning of `PREVIEW.CHAR` made by itself (R193): the byte it yields goes to the model's `charOut`. -/
def execPreviewChar (b : Byte) (s : State) : Host.Outcome State Fault Refusal :=
  .next { s with charOut := previewChar b }
/-- Meaning of `PREVIEW.BUILD` (R194). -/
def execPreviewBuild (s : State) : Host.Outcome State Fault Refusal := settle (opPreviewBuild s)

end Sys2Proof.Machine
end

