-- ==== Sys2Proof/Machine/Tcp.lean ====
section
/-! DEFINITION. The TCP stage (42_tcp_dissector.md R150 to R163) and the six rows of the flag table
(30_encoding.md R67). -/

namespace Sys2Proof.Machine

/-- `TCP.LENCHK` (R151). -/
def opTcpLenchk : State → Flow := fun s => raiseIf (s.regs.segLen < Config.tcpMinHdr) .tcpShort s

/-- `TCP.SPORT` (R152): `TCP_SPORT <- MemRead(SEG_OFF + 0, 2)`. -/
def opTcpSport : State → Flow := readTcp Layout.tcpSport (fun r v => { r with tcpSport := BitVec.ofNat 16 v })

/-- `TCP.DPORT` (R153): `TCP_DPORT <- MemRead(SEG_OFF + 2, 2)`. -/
def opTcpDport : State → Flow := readTcp Layout.tcpDport (fun r v => { r with tcpDport := BitVec.ofNat 16 v })

/-- `TCP.SEQ` (R154): `TCP_SEQ <- MemRead(SEG_OFF + 4, 4)`. -/
def opTcpSeq : State → Flow := readTcp Layout.tcpSeq (fun r v => { r with tcpSeq := BitVec.ofNat 32 v })

/-- `TCP.ACK` (R155): `TCP_ACK <- MemRead(SEG_OFF + 8, 4)`. -/
def opTcpAck : State → Flow := readTcp Layout.tcpAck (fun r v => { r with tcpAck := BitVec.ofNat 32 v })

/-- `TCP.DOFF` (R156): the high nibble of byte 12, and four times it. -/
def opTcpDoff : State → Flow :=
  readTcp Layout.tcpDoff (fun r v =>
    { r with
      tcpDoff := highNibble (BitVec.ofNat 8 v)
      tcpHlen := (highNibble (BitVec.ofNat 8 v)).toNat * Config.wordBytes })

/-- `TCP.DOFFMIN` (R157). -/
def opTcpDoffmin : State → Flow := fun s => raiseIf (s.regs.tcpDoff.toNat < Config.tcpMinDoff) .tcpDoffLtMin s

/-- `TCP.HLENCHK` (R158). -/
def opTcpHlenchk : State → Flow := fun s => raiseIf (s.regs.segLen < s.regs.tcpHlen) .tcpDoffGtBuf s

/-- `TCP.FLAGS` (R159): `TCP_FLAGS <- MemRead(SEG_OFF + 13, 1)`. -/
def opTcpFlags : State → Flow := readTcp Layout.tcpFlags (fun r v => { r with tcpFlags := BitVec.ofNat 8 v })

/-- `TCP.WIN` (R160): `TCP_WIN <- MemRead(SEG_OFF + 14, 2)`. -/
def opTcpWin : State → Flow := readTcp Layout.tcpWin (fun r v => { r with tcpWin := BitVec.ofNat 16 v })

/-- One row of the flag table: its bit of `FLAGSET` becomes its bit test of `TCP_FLAGS` (R67, R161). -/
def opFlag (f : Flag) : State → Flow := fun s =>
  .ok (s.putRegs { s.regs with flagset := decodeFlag s.regs.tcpFlags s.regs.flagset f })

/-- `TCP.FLAGSET` (R161): the six bit tests, in display order. -/
def opTcpFlagset : State → Flow := fun s =>
  .ok (s.putRegs { s.regs with flagset := decodeFlags s.regs.tcpFlags })

/-- `TCP.PAYLOAD` (R162): the payload slice, then `STAGE <- RENDER`. -/
def opTcpPayload : State → Flow := fun s =>
  .ok ((s.putRegs { s.regs with
    payOff := s.regs.segOff + s.regs.tcpHlen
    payLen := guardedSub .payLen s.regs.segLen s.regs.tcpHlen }).putStage .render)

/-- `TCP_PARSE` (R150): the twelve operations in order. -/
def opTcpParse : State → Flow :=
  runOps [opTcpLenchk, opTcpSport, opTcpDport, opTcpSeq, opTcpAck, opTcpDoff, opTcpDoffmin, opTcpHlenchk, opTcpFlags,
    opTcpWin, opTcpFlagset, opTcpPayload]

/-- Meaning of `TCP.LENCHK` (R151). -/
def execTcpLenchk (s : State) : Host.Outcome State Fault Refusal := settle (opTcpLenchk s)
/-- Meaning of `TCP.SPORT` (R152). -/
def execTcpSport (s : State) : Host.Outcome State Fault Refusal := settle (opTcpSport s)
/-- Meaning of `TCP.DPORT` (R153). -/
def execTcpDport (s : State) : Host.Outcome State Fault Refusal := settle (opTcpDport s)
/-- Meaning of `TCP.SEQ` (R154). -/
def execTcpSeq (s : State) : Host.Outcome State Fault Refusal := settle (opTcpSeq s)
/-- Meaning of `TCP.ACK` (R155). -/
def execTcpAck (s : State) : Host.Outcome State Fault Refusal := settle (opTcpAck s)
/-- Meaning of `TCP.DOFF` (R156). -/
def execTcpDoff (s : State) : Host.Outcome State Fault Refusal := settle (opTcpDoff s)
/-- Meaning of `TCP.DOFFMIN` (R157). -/
def execTcpDoffmin (s : State) : Host.Outcome State Fault Refusal := settle (opTcpDoffmin s)
/-- Meaning of `TCP.HLENCHK` (R158). -/
def execTcpHlenchk (s : State) : Host.Outcome State Fault Refusal := settle (opTcpHlenchk s)
/-- Meaning of `TCP.FLAGS` (R159). -/
def execTcpFlags (s : State) : Host.Outcome State Fault Refusal := settle (opTcpFlags s)
/-- Meaning of `TCP.WIN` (R160). -/
def execTcpWin (s : State) : Host.Outcome State Fault Refusal := settle (opTcpWin s)
/-- Meaning of `TCP.FLAGSET` (R161). -/
def execTcpFlagset (s : State) : Host.Outcome State Fault Refusal := settle (opTcpFlagset s)
/-- Meaning of `FLAG.SYN` (R67, R161). -/
def execFlagSyn (s : State) : Host.Outcome State Fault Refusal := settle (opFlag .syn s)
/-- Meaning of `FLAG.ACK` (R67, R161). -/
def execFlagAck (s : State) : Host.Outcome State Fault Refusal := settle (opFlag .ack s)
/-- Meaning of `FLAG.FIN` (R67, R161). -/
def execFlagFin (s : State) : Host.Outcome State Fault Refusal := settle (opFlag .fin s)
/-- Meaning of `FLAG.RST` (R67, R161). -/
def execFlagRst (s : State) : Host.Outcome State Fault Refusal := settle (opFlag .rst s)
/-- Meaning of `FLAG.PSH` (R67, R161). -/
def execFlagPsh (s : State) : Host.Outcome State Fault Refusal := settle (opFlag .psh s)
/-- Meaning of `FLAG.URG` (R67, R161). -/
def execFlagUrg (s : State) : Host.Outcome State Fault Refusal := settle (opFlag .urg s)
/-- Meaning of `TCP.PAYLOAD` (R162). -/
def execTcpPayload (s : State) : Host.Outcome State Fault Refusal := settle (opTcpPayload s)
/-- Meaning of `TCP_PARSE` (R150). -/
def execTcpParse (s : State) : Host.Outcome State Fault Refusal := settle (opTcpParse s)

end Sys2Proof.Machine
end

