-- ==== Sys2Proof/Machine/Loop.lean ====
section
/-! DEFINITION. The pass, the capture loop and the block's requests of the host (44_frame_pass_and_host.md R230 to
R241), and the wired sequence: which operation follows which (R13, R230, R231). -/

namespace Sys2Proof.Machine

/-! ## One pass -/

/-- The four stages in the document's order (R230). -/
def opStages : State → Flow := runOps [opEthParse, opIpv4Parse, opTcpParse, opRender]

/-- The pass's end once its record was handed over (R230): the status, `STAGE <- IDLE`; with the record still pending the
pass is not over (R237, R286). -/
def afterReport (s : State) : State := if s.pending.isSome then s else s.emitDiag.endPass

/-- The pass's end on success (R230): the record, the status, `STAGE <- IDLE`. -/
def finishPass (s : State) : State := afterReport s.handOver

/-- Meaning of `FRAME_PASS` (R230): the four stages; a raise gives the drop, success the report. -/
def execFramePass (s : State) : Host.Outcome State Fault Refusal :=
  match opStages s with
  | .ok t => .next (finishPass t)
  | .raised c t => .next (takeRaise c t)
  | .fault f => .fault f

/-! ## The request to the capture source -/

/-- What comes of a request (R232). -/
inductive Answered where
  | waiting
  | frame (s : State)
  | error (s : State)

/-- A request is made only with `LOOP = RUNNING`, `STAGE = IDLE`, no frame in flight and no record pending (R232, R237,
R241, R286). -/
def mayRequest (s : State) : Bool :=
  s.loop == .running && s.stage == .idle && !s.inFlight && s.pending.isNone

/-- `NEXT_FRAME()` (R232): the source answers with a frame, with an error, or not yet. -/
def request (s : State) : Answered :=
  if mayRequest s then
    match s.answers with
    | [] => .waiting
    | .frame bs :: rest => .frame ({ s with answers := rest }.loadFrame bs)
    | .error e :: rest => .error { s with answers := rest, sourceError := some e }
  else .waiting

/-- Meaning of `NEXT_FRAME` (R232): a frame is loaded; an error answer raises `CaptureError`, which is taken (R235); with
no answer yet the core waits (U8); where no request may be made, none is made (notes/assumptions/14.md). -/
def execNextFrame (s : State) : Host.Outcome State Fault Refusal :=
  match request s with
  | .waiting => .next s
  | .frame t => .next t
  | .error t => .next (takeCaptureError t)

/-- Meaning of `EMIT_REPORT` (R233, R286): the sink takes the record, or one turn of waiting for it goes by. -/
def execEmitReport (s : State) : Host.Outcome State Fault Refusal := .next s.emitReport

/-- Meaning of `EMIT_DIAG` (R234). -/
def execEmitDiag (s : State) : Host.Outcome State Fault Refusal := .next s.emitDiag

/-- Meaning of `CAPTURE_ERROR` (R235). -/
def execCaptureError (s : State) : Host.Outcome State Fault Refusal := .next (takeCaptureError s)

/-! ## The loop -/

/-- At most `n` turns of the loop of R231. -/
def runLoop : Nat → State → Host.Outcome State Fault Refusal
  | 0, s => .next s
  | n + 1, s =>
    match s.loop with
    | .halted => .next s
    | .running =>
      match request s with
      | .waiting => .next s
      | .error t => .next (takeCaptureError t)
      | .frame t =>
        match execFramePass t with
        | .next u => runLoop n u
        | .fault f => .fault f
        | .refused r => .refused r

/-- Meaning of `RUN` (R231, D2): the fold of the pass over the answers the source gives; it ends halted, or waiting for
an answer the source has not given, or with a record pending that the sink never takes (R286). Each turn uses up one
answer, so there are at most as many turns as answers. -/
def execRun (s : State) : Host.Outcome State Fault Refusal := runLoop s.answers.length s

/-! ## The wired sequence -/

/-- The operation the block makes next (R13, R230, R231): the one the sequence has come to; else, while the loop runs,
the request for the next frame; once halted, none (R235). -/
def nextOp (s : State) : Option Instr :=
  match s.op with
  | some i => some i
  | none =>
    match s.loop with
    | .running => some .nextFrame
    | .halted => none

/-- The stage `STAGE` points at, after a stage operation (R13). -/
def stageOp : Stage → Option Instr
  | .idle => none
  | .eth => some .ethParse
  | .ip => some .ipv4Parse
  | .tcp => some .tcpParse
  | .render => some .render

/-- What the sequence comes to after an operation (R230): a frame answered starts the pass; a stage is followed by the
stage `STAGE` points at, and by none once a raise has ended the pass; after the renderer the record goes out if `STATUS`
is 0x00, and once the sink has taken it the status; the status out, the pass ends. A whole pass or run made at once has
left the sequence where it is. An operation that is no line of R230 or R231 is followed by none, so the loop's request is
next: with a frame in flight it is refused and the sequence comes to `ETH_PARSE`, the pass over the same frame from its
start; with none, and `STAGE` not idle or a record pending, the block waits (DESIGN CHOICE, unsafe for claims about it:
notes/assumptions/21.md). -/
def sequence (i : Instr) (t : State) : State :=
  match i with
  | .nextFrame => { t with op := if t.inFlight then some .ethParse else none }
  | .ethParse | .ipv4Parse | .tcpParse => { t with op := stageOp t.stage }
  | .render => { t with op := if t.status = Cause.report.code then some .emitReport else some .emitDiag }
  | .emitReport => { t with op := if t.pending.isSome then some .emitReport else some .emitDiag }
  | .emitDiag => { t.endPass with op := none }
  | .framePass | .run => t
  | .captureError
  | .ethLenchk | .ethDst | .ethSrc | .ethType | .ethRest | .ethDispatch
  | .ipLenchk | .ipVihl | .ipHlen | .ipHlenchk | .ipTotlen | .ipProto | .ipSrc | .ipDst | .ipSlice | .ipDispatch
  | .tcpLenchk | .tcpSport | .tcpDport | .tcpSeq | .tcpAck | .tcpDoff | .tcpDoffmin | .tcpHlenchk | .tcpFlags
  | .tcpWin | .tcpFlagset | .flagSyn | .flagAck | .flagFin | .flagRst | .flagPsh | .flagUrg | .tcpPayload
  | .reportAssemble | .previewLen | .previewChar _ | .previewBuild
  | .flagsText _ | .ipv4Text _ | .decText _ | .renderText _ => { t with op := none }

/-! ## A frame placed by hand -/

/-- The shortest frame that reaches every stage: empty options, no payload, the given flags byte (R74). -/
def carrierFrame (flags : Byte) : List Byte :=
  encodeFrame
    { ethDst := 0, ethSrc := 0, tos := 0, ident := 0, fragment := 0, ttl := 0, ipChecksum := 0, ipSrc := 0, ipDst := 0
      ipOptions := [], srcPort := 0, dstPort := 0, seq := 0, ack := 0, reserved := 0, flags := flags, window := 0
      tcpChecksum := 0, urgent := 0, tcpOptions := [], payload := [], trailing := [] }

/-- The state after some wired operations, where they go on. -/
def after (fs : List (State → Flow)) (s : State) : State :=
  match runOps fs s with
  | .ok t => t
  | .raised _ t => t
  | .fault _ => s

/-- The state in which the selector of a dispatch code holds the code and the operation the code selects comes next: a
carrier frame in flight whose bytes hold the code, taken through the operations wired before it
(notes/assumptions/11.md). -/
def placeSelector (i : Instr) (s : State) : State :=
  let start (flags : Byte) : State := { s.putStage .idle with loop := .running, resetIn := [] }.loadFrame (carrierFrame flags)
  let flagged (f : Flag) : State :=
    after [opEthParse, opIpv4Parse, opTcpLenchk, opTcpSport, opTcpDport, opTcpSeq, opTcpAck, opTcpDoff, opTcpDoffmin,
      opTcpHlenchk, opTcpFlags, opTcpWin] (start f.mask)
  match i with
  | .ipv4Parse => after [opEthParse] (start 0)
  | .tcpParse => after [opEthParse, opIpv4Parse] (start 0)
  | .flagSyn => flagged .syn
  | .flagAck => flagged .ack
  | .flagFin => flagged .fin
  | .flagRst => flagged .rst
  | .flagPsh => flagged .psh
  | .flagUrg => flagged .urg
  | .emitReport => after [opEthParse, opIpv4Parse, opTcpParse, opRender] (start 0)
  | .captureError => { s with sourceError := some ⟨0⟩, resetIn := [] }
  | _ => { s with resetIn := [] }

end Sys2Proof.Machine
end

