-- ==== Sys2Proof/Machine/Text.lean ====
section
/-! DEFINITION. The reference text of a report (43_report_renderer.md R195 to R198): pure functions of the record, as
ASCII bytes. The text is outside the block's own output (90_conflicts.md C7); the operation that yields it puts it in the
model's `textOut` (notes/assumptions/12.md). -/

namespace Sys2Proof.Machine

/-- ASCII text as bytes. -/
def ascii (t : String) : List Byte := t.toList.map (fun c => BitVec.ofNat 8 c.toNat)

/-- The digit character of a number below 10 (R197). -/
def digitChar (d : Nat) : Byte := BitVec.ofNat 8 (0x30 + d)

/-- Decimal digits, most significant first; `fuel` bounds their number. -/
def decDigits : Nat → Nat → List Byte
  | 0, _ => []
  | fuel + 1, v => if v < 10 then [digitChar v] else decDigits fuel (v / 10) ++ [digitChar (v % 10)]

/-- `Dec(v)` (R197): the shortest string of digits whose base-10 value is `v`. -/
def decText (v : Nat) : List Byte := decDigits (v + 1) v

/-- `Ipv4Text(a)` (R196): dotted decimal, first header byte first. -/
def ipv4Text (a : Word) : List Byte :=
  decText (BitVec.extractLsb' 24 8 a).toNat ++ ascii "." ++ decText (BitVec.extractLsb' 16 8 a).toNat ++ ascii "."
    ++ decText (BitVec.extractLsb' 8 8 a).toNat ++ ascii "." ++ decText (BitVec.extractLsb' 0 8 a).toNat

/-- `join(names, ", ")` (R195). -/
def joinNames : List (List Byte) → List Byte
  | [] => []
  | [n] => n
  | n :: m :: rest => n ++ ascii Config.flagSep ++ joinNames (m :: rest)

/-- `FlagsText(flags)` (R195). -/
def flagsText (fs : BitVec 6) : List Byte :=
  match flagsIn fs with
  | [] => ascii Config.noFlags
  | f :: rest => joinNames ((f :: rest).map (fun g => ascii g.name))

/-- The lines of the reference text (R198); line 7 only when there is a payload. -/
def reportLines (r : PacketReport) : List (List Byte) :=
  [ ascii "TCP Packet",
    ascii " IP Layer: src=" ++ ipv4Text r.ipSrc ++ ascii ", dst=" ++ ipv4Text r.ipDst ++ ascii ", total_length="
      ++ decText r.ipTotalLength.toNat,
    ascii " TCP Layer: src_port=" ++ decText r.srcPort.toNat ++ ascii ", dst_port=" ++ decText r.dstPort.toNat
      ++ ascii ", seq=" ++ decText r.seq.toNat ++ ascii ", ack=" ++ decText r.ack.toNat ++ ascii ",",
    ascii "            header_len=" ++ decText r.headerLen.toNat ++ ascii ", window=" ++ decText r.window.toNat,
    ascii " Flags: " ++ flagsText r.flags,
    ascii " Payload: " ++ decText r.payloadLen.toNat ++ ascii " bytes" ]
  ++ (if 0 < r.payloadLen.toNat then [ascii "   Preview: " ++ r.preview.take r.previewLen.toNat] else [])

/-- `RenderText(r)` (R198): each line ended by one line feed. -/
def renderText (r : PacketReport) : List Byte := ((reportLines r).map (fun l => l ++ [0x0A])).flatten

/-- Meaning of `FLAGS_TEXT` (R195). -/
def execFlagsText (fs : BitVec 6) (s : State) : Host.Outcome State Fault Refusal := .next (s.putText (flagsText fs))
/-- Meaning of `IPV4_TEXT` (R196). -/
def execIpv4Text (a : Word) (s : State) : Host.Outcome State Fault Refusal := .next (s.putText (ipv4Text a))
/-- Meaning of `DEC_TEXT` (R197). -/
def execDecText (v : Nat) (s : State) : Host.Outcome State Fault Refusal := .next (s.putText (decText v))
/-- Meaning of `RENDER_TEXT` (R198). -/
def execRenderText (r : PacketReport) (s : State) : Host.Outcome State Fault Refusal := .next (s.putText (renderText r))

end Sys2Proof.Machine
end

