-- ==== Sys2Proof/Machine/Dispatch.lean ====
section
/-! DEFINITION. Which meaning each operation has: one arm per constructor of `Instr`. -/

namespace Sys2Proof.Machine

def exec (i : Instr) (s : State) : Host.Outcome State Fault Refusal :=
  match i with
  | .framePass => Sys2Proof.Machine.execFramePass s
  | .run => Sys2Proof.Machine.execRun s
  | .nextFrame => Sys2Proof.Machine.execNextFrame s
  | .emitReport => Sys2Proof.Machine.execEmitReport s
  | .emitDiag => Sys2Proof.Machine.execEmitDiag s
  | .captureError => Sys2Proof.Machine.execCaptureError s
  | .ethParse => Sys2Proof.Machine.execEthParse s
  | .ethLenchk => Sys2Proof.Machine.execEthLenchk s
  | .ethDst => Sys2Proof.Machine.execEthDst s
  | .ethSrc => Sys2Proof.Machine.execEthSrc s
  | .ethType => Sys2Proof.Machine.execEthType s
  | .ethRest => Sys2Proof.Machine.execEthRest s
  | .ethDispatch => Sys2Proof.Machine.execEthDispatch s
  | .ipv4Parse => Sys2Proof.Machine.execIpv4Parse s
  | .ipLenchk => Sys2Proof.Machine.execIpLenchk s
  | .ipVihl => Sys2Proof.Machine.execIpVihl s
  | .ipHlen => Sys2Proof.Machine.execIpHlen s
  | .ipHlenchk => Sys2Proof.Machine.execIpHlenchk s
  | .ipTotlen => Sys2Proof.Machine.execIpTotlen s
  | .ipProto => Sys2Proof.Machine.execIpProto s
  | .ipSrc => Sys2Proof.Machine.execIpSrc s
  | .ipDst => Sys2Proof.Machine.execIpDst s
  | .ipSlice => Sys2Proof.Machine.execIpSlice s
  | .ipDispatch => Sys2Proof.Machine.execIpDispatch s
  | .tcpParse => Sys2Proof.Machine.execTcpParse s
  | .tcpLenchk => Sys2Proof.Machine.execTcpLenchk s
  | .tcpSport => Sys2Proof.Machine.execTcpSport s
  | .tcpDport => Sys2Proof.Machine.execTcpDport s
  | .tcpSeq => Sys2Proof.Machine.execTcpSeq s
  | .tcpAck => Sys2Proof.Machine.execTcpAck s
  | .tcpDoff => Sys2Proof.Machine.execTcpDoff s
  | .tcpDoffmin => Sys2Proof.Machine.execTcpDoffmin s
  | .tcpHlenchk => Sys2Proof.Machine.execTcpHlenchk s
  | .tcpFlags => Sys2Proof.Machine.execTcpFlags s
  | .tcpWin => Sys2Proof.Machine.execTcpWin s
  | .tcpFlagset => Sys2Proof.Machine.execTcpFlagset s
  | .flagSyn => Sys2Proof.Machine.execFlagSyn s
  | .flagAck => Sys2Proof.Machine.execFlagAck s
  | .flagFin => Sys2Proof.Machine.execFlagFin s
  | .flagRst => Sys2Proof.Machine.execFlagRst s
  | .flagPsh => Sys2Proof.Machine.execFlagPsh s
  | .flagUrg => Sys2Proof.Machine.execFlagUrg s
  | .tcpPayload => Sys2Proof.Machine.execTcpPayload s
  | .render => Sys2Proof.Machine.execRender s
  | .reportAssemble => Sys2Proof.Machine.execReportAssemble s
  | .previewLen => Sys2Proof.Machine.execPreviewLen s
  | .previewChar b => Sys2Proof.Machine.execPreviewChar b s
  | .previewBuild => Sys2Proof.Machine.execPreviewBuild s
  | .flagsText flags => Sys2Proof.Machine.execFlagsText flags s
  | .ipv4Text a => Sys2Proof.Machine.execIpv4Text a s
  | .decText v => Sys2Proof.Machine.execDecText v s
  | .renderText r => Sys2Proof.Machine.execRenderText r s

end Sys2Proof.Machine
end

