-- ==== Sys2Proof/Machine/Step.lean ====
section
/-! DEFINITION. One step: the reset input first (70_reset_and_hazards.md R280), else the operation the wired sequence has
come to (44_frame_pass_and_host.md R230, R231); and the placing of an operation by its dispatch code. -/

namespace Sys2Proof.Machine

/-- The next operation, and what the sequence comes to after it; with none to make (halted), nothing changes (R235). -/
def stepOp (s : State) : Host.Outcome State Fault Refusal :=
  match nextOp s with
  | none => .next s
  | some i =>
    match exec i { s with op := none } with
    | .next t => .next (sequence i t)
    | .fault f => .fault f
    | .refused r => .refused r

/-- One step. -/
def step (s : State) : Host.Outcome State Fault Refusal :=
  match readReset s with
  | .asserted t => .next (takeReset t)
  | .idle t => stepOp t

/-- The state whose next step makes the operation a dispatch code selects. The block fetches no instructions; its next
operation is selected by a field of the frame in flight or by `STATUS`, so all of that is set (notes/assumptions/11.md).
A code that selects nothing changes nothing. -/
def State.withFetchWord (s : State) (nbits w : Nat) : State :=
  match decodeTableWord nbits w with
  | none => s
  | some i => { placeSelector i s with op := some i }

end Sys2Proof.Machine
end

