-- ==== Sys2Proof/Safety.lean ====
section
/-! DEFINITION. The terms claims use: a frame in flight, the end of a pass, a reference function from a frame's bytes to
its outcome (00_scope.md R4: "a model may implement a pass as one pure function of the frame bytes"), and the invariant
of a run. -/

namespace Sys2Proof.Machine

/-! ## A frame in the buffer -/

/-- The buffer holds exactly the bytes `bs` (10_state.md R11). -/
def FrameIn (s : State) (bs : List Byte) : Prop := s.fb = Memory.ofBytes bs ∧ s.len = bs.length

/-- The `n` bytes at `addr` lie inside the slice `(off, len)` and inside the frame `bs` (20_memory.md R45, R53). -/
def InSlice (bs : List Byte) (off len addr n : Nat) : Prop :=
  off ≤ addr ∧ addr + n ≤ off + len ∧ addr + n ≤ bs.length

/-- The `n` bytes at `addr` reach beyond the frame `bs` or beyond the slice `(off, len)` (20_memory.md R45,
93_implementation_defined.md U4). -/
def OutOfSlice (bs : List Byte) (off len addr n : Nat) : Prop :=
  bs.length < addr + n ∨ addr < off ∨ off + len < addr + n

/-- The value of the `n` bytes of a byte string from an offset on, first byte most significant (20_memory.md R41). -/
def Ref.field (bs : List Byte) (off n : Nat) : Nat := beValue ((bs.drop off).take n)

/-! ## The reference: what the rules say of a frame, read off its bytes -/

/-- The ethertype (R104). -/
def Ref.ethertype (bs : List Byte) : Nat := Ref.field bs 12 2
/-- The IHL, times four (R65, R123). -/
def Ref.ipHlen (bs : List Byte) : Nat := Ref.field bs 14 1 % 16 * 4
/-- The IPv4 total length (R125). -/
def Ref.totlen (bs : List Byte) : Nat := Ref.field bs 16 2
/-- The protocol (R126). -/
def Ref.proto (bs : List Byte) : Nat := Ref.field bs 23 1
/-- Where the TCP segment starts (R129). -/
def Ref.segOff (bs : List Byte) : Nat := 14 + Ref.ipHlen bs
/-- How long the TCP segment is (R129). -/
def Ref.segLen (bs : List Byte) : Nat := min (Ref.totlen bs - Ref.ipHlen bs) (bs.length - 14 - Ref.ipHlen bs)
/-- The data offset of a TCP header at an offset (R156). -/
def Ref.doffAt (bs : List Byte) (off : Nat) : Nat := Ref.field bs (off + 12) 1 / 16
/-- The TCP header length (R156). -/
def Ref.tcpHlen (bs : List Byte) : Nat := Ref.doffAt bs (Ref.segOff bs) * 4
/-- Where the payload starts (R162). -/
def Ref.payOff (bs : List Byte) : Nat := Ref.segOff bs + Ref.tcpHlen bs
/-- How long the payload is (R162). -/
def Ref.payLen (bs : List Byte) : Nat := Ref.segLen bs - Ref.tcpHlen bs

/-- The flag set of a flags byte, bit by bit as R161 writes it out. -/
def Ref.flagset (flags : Nat) : BitVec 6 :=
  BitVec.ofNat 6
    ((flags / 2 % 2) + 2 * (flags / 16 % 2) + 4 * (flags % 2) + 8 * (flags / 4 % 2) + 16 * (flags / 8 % 2)
      + 32 * (flags / 32 % 2))

/-- The preview of a payload (R192 to R194). -/
def Ref.preview (payload : List Byte) : List Byte :=
  (payload.take 64).map (fun b => if 0x20 ≤ b.toNat ∧ b.toNat ≤ 0x7E then b else 0x2E)

/-- The condition the Ethernet stage raises for a frame, if any (R100, R251). -/
def Ref.ethCause (bs : List Byte) : Option Cause :=
  if bs.length < 14 then some .ethShort
  else if Ref.ethertype bs ≠ 0x0800 then some .ethertype
  else none

/-- The first condition the IPv4 stage raises for a frame, if any (R120, R251). -/
def Ref.ipCause (bs : List Byte) : Option Cause :=
  if bs.length - 14 < 20 then some .ipShort
  else if Ref.ipHlen bs < 20 then some .ipIhlLtMin
  else if bs.length - 14 < Ref.ipHlen bs then some .ipIhlGtBuf
  else if Ref.totlen bs < Ref.ipHlen bs then some .ipTotlenLtHlen
  else if Ref.proto bs ≠ 6 then some .protocol
  else none

/-- The first condition the TCP stage raises for a segment of `len` bytes at `off`, if any (R150, R251). -/
def Ref.tcpCauseAt (bs : List Byte) (off len : Nat) : Option Cause :=
  if len < 20 then some .tcpShort
  else if Ref.doffAt bs off < 5 then some .tcpDoffLtMin
  else if len < Ref.doffAt bs off * 4 then some .tcpDoffGtBuf
  else none

/-- The outcome of a frame: the first condition it meets in the order of R252, else a report. -/
def Ref.verdict (bs : List Byte) : Cause :=
  match Ref.ethCause bs with
  | some c => c
  | none =>
    match Ref.ipCause bs with
    | some c => c
    | none =>
      match Ref.tcpCauseAt bs (Ref.segOff bs) (Ref.segLen bs) with
      | some c => c
      | none => .report

/-- The record of a frame that passes every check (R191). -/
def Ref.report (bs : List Byte) : PacketReport where
  ipSrc := BitVec.ofNat 32 (Ref.field bs 26 4)
  ipDst := BitVec.ofNat 32 (Ref.field bs 30 4)
  ipTotalLength := BitVec.ofNat 16 (Ref.totlen bs)
  srcPort := BitVec.ofNat 16 (Ref.field bs (Ref.segOff bs) 2)
  dstPort := BitVec.ofNat 16 (Ref.field bs (Ref.segOff bs + 2) 2)
  seq := BitVec.ofNat 32 (Ref.field bs (Ref.segOff bs + 4) 4)
  ack := BitVec.ofNat 32 (Ref.field bs (Ref.segOff bs + 8) 4)
  headerLen := BitVec.ofNat 6 (Ref.tcpHlen bs)
  window := BitVec.ofNat 16 (Ref.field bs (Ref.segOff bs + 14) 2)
  flags := Ref.flagset (Ref.field bs (Ref.segOff bs + 13) 1)
  payloadLen := BitVec.ofNat 16 (Ref.payLen bs)
  previewLen := BitVec.ofNat 7 (min (Ref.payLen bs) 64)
  preview := Ref.preview ((bs.drop (Ref.payOff bs)).take (Ref.payLen bs))

/-- The frames a source's answers give, up to its first error: each is the frame of one pass (R231, D2). -/
def Ref.framesOf : List SourceAnswer → List (List Byte)
  | [] => []
  | .frame bs :: rest => bs :: Ref.framesOf rest
  | .error _ :: _ => []

/-- The records of a run: "exactly the records of the frames answered so far whose passes ended in `Report`, in order"
(70_reset_and_hazards.md R282). -/
def Ref.recordsOf (as : List SourceAnswer) : List PacketReport :=
  ((Ref.framesOf as).filter (fun bs => Ref.verdict bs = .report)).map Ref.report

/-- The codes of a run: one for each pass, and 0xC1 for the halt (R234). -/
def Ref.codesOf (as : List SourceAnswer) : List Byte :=
  (Ref.framesOf as).map (fun bs => (Ref.verdict bs).code)
    ++ (if as.any (fun a => match a with | .error _ => true | .frame _ => false) then [0xC1] else [])

/-- The value `v` put in the byte at `i` changes only bits that are "ignored: whatever their value they never change an
outcome or a report" (30_encoding.md R69): the two addresses of the Ethernet header (90_conflicts.md C4), the IPv4
version, type of service, identification, fragment word, time to live and checksum; and, in a frame that passes every
check, the IPv4 options, the low nibble of TCP byte 12, bits 7 and 6 of the flags byte, the TCP checksum, urgent pointer
and options, and the bytes after the segment. -/
def Ref.ignored (bs : List Byte) (i : Nat) (v : Byte) : Prop :=
  i < 12 ∨ (i = 14 ∧ v.toNat % 16 = Ref.field bs 14 1 % 16) ∨ i = 15 ∨ (18 ≤ i ∧ i ≤ 22) ∨ i = 24 ∨ i = 25
    ∨ (Ref.verdict bs = .report
        ∧ ((34 ≤ i ∧ i < Ref.segOff bs)
          ∨ (i = Ref.segOff bs + 12 ∧ v.toNat / 16 = Ref.doffAt bs (Ref.segOff bs))
          ∨ (i = Ref.segOff bs + 13 ∧ v.toNat % 64 = Ref.field bs (Ref.segOff bs + 13) 1 % 64)
          ∨ (Ref.segOff bs + 16 ≤ i ∧ i < Ref.payOff bs)
          ∨ Ref.segOff bs + Ref.segLen bs ≤ i))

/-- The record the reference encoder's frame stands for (30_encoding.md R74). -/
def Ref.expected (f : FrameSpec) : PacketReport where
  ipSrc := f.ipSrc
  ipDst := f.ipDst
  ipTotalLength := BitVec.ofNat 16 f.totalLength
  srcPort := f.srcPort
  dstPort := f.dstPort
  seq := f.seq
  ack := f.ack
  headerLen := BitVec.ofNat 6 (20 + f.tcpOptions.length)
  window := f.window
  flags := Ref.flagset f.flags.toNat
  payloadLen := BitVec.ofNat 16 f.payload.length
  previewLen := BitVec.ofNat 7 (min f.payload.length 64)
  preview := Ref.preview f.payload

/-! ## What an operation leaves as it was -/

/-- The pass that was under way in `s` is over in `t`, nothing is pending, and nothing outside the pass has changed but
`STATUS`, `REPORT_OUT` with the sink's turns, and `DIAG_OUT`, of which this says nothing. The stage registers and the
preview hold no value in `t` (R24). That a record left pending out of its place is gone too is the model's choice
(notes/assumptions/17.md). -/
def PassOver (s t : State) : Prop :=
  t.stage = .idle ∧ t.inFlight = false ∧ t.fb = [] ∧ t.pending = none ∧ t.loop = s.loop ∧ t.op = s.op
    ∧ t.errorOut = s.errorOut ∧ t.answers = s.answers ∧ t.sourceError = s.sourceError ∧ t.resetIn = s.resetIn
    ∧ t.charOut = s.charOut ∧ t.textOut = s.textOut

/-- The frame in flight in `s` was dropped with status `code`, and `t` is what is left (60_exceptions.md R253): the code
in `STATUS` and on `DIAG_OUT`, nothing on `REPORT_OUT`, no turn of the sink used, the pass over. -/
def Dropped (s t : State) (code : Byte) : Prop :=
  PassOver s t ∧ t.status = code ∧ t.diagOut = s.diagOut ++ [code] ∧ t.reportOut = s.reportOut
    ∧ t.sink = s.sink

/-- A sequence of operations made one by one, each by itself, stopping when one has ended the pass (R100, R253). -/
def execAll : List Instr → State → Host.Outcome State Fault Refusal
  | [], s => .next s
  | i :: is, s =>
    match exec i s with
    | .next t => if t.inFlight then execAll is t else .next t
    | .fault f => .fault f
    | .refused r => .refused r

/-! ## The invariant of a run -/

/-- The turns of the block for which the sink lets the next record wait (R286). -/
def SinkTurn.wait : SinkTurn → Nat
  | .takesAfter n => n
  | .never => 0

/-- What holds between two steps for the operation the sequence has come to (R13, R45, R53, R232). -/
def OpInv (s : State) : Prop :=
  match s.op with
  | none => s.stage = .idle ∧ s.inFlight = false
  | some .ethParse => s.stage = .idle ∧ s.inFlight = true
  | some .ipv4Parse =>
    s.stage = .ip ∧ s.inFlight = true ∧ 14 ≤ s.len ∧ s.regs.ipOff = 14 ∧ s.regs.ipLen = s.len - 14
  | some .tcpParse => s.stage = .tcp ∧ s.inFlight = true ∧ s.regs.segOff + s.regs.segLen ≤ s.len ∧ s.regs.segLen ≤ 65515
  | some .render =>
    s.stage = .render ∧ s.inFlight = true ∧ s.regs.payOff + s.regs.payLen ≤ s.len ∧ s.regs.payLen ≤ 65495
  | some .emitReport => s.stage = .render ∧ s.inFlight = true ∧ s.status = 0x00
  | some .emitDiag => s.stage = .render ∧ s.inFlight = true ∧ s.status = 0x00
  | some _ => False

/-- The invariant of a run: the frame buffer keeps its canonical form, `PV_LEN` is a count from 0 to 64, a frame in flight
is some byte string with its length, only the codes of R251 have gone out, a halted block is idle, a record is pending only
in `EMIT_REPORT` and is the record of the pass, and the wired sequence is where its stage registers say. -/
def Inv (s : State) : Prop :=
  Memory.wf s.fb = true ∧ s.regs.pvLen.toNat ≤ 64
    ∧ (s.inFlight = true → ∃ bs, FrameIn s bs)
    ∧ (∀ c, c ∈ s.diagOut → c ∈ Cause.all.map Cause.code)
    ∧ (s.loop = .halted → s.op = none)
    ∧ (s.pending ≠ none → s.op = some .emitReport ∧ s.pending = some s.regs.report)
    ∧ OpInv s

end Sys2Proof.Machine
end

