-- ==== Sys2Proof/Certificates/Slice0/Obligations.lean ====
section
/-! DEFINITION. The statements for the provers, each from the numbered rules of spec/ that its docstring names. An
equation `exec i s = .next …` is the operation's result, its completion and its frame at once: whatever the record
update does not name is unchanged. -/

open Sys2Proof Sys2Proof.Machine

/-! ## Encodings -/

/-- Decoding an encoded well-formed operation gives it back, with every operand at every value and whatever bytes
follow. The codes 0x0800, 6, the six masks, 0x00 and 0xC1 are the spec's (30_encoding.md R66, R67, opcode_table.json);
the selector bytes and the row numbers are the model's (log 10). -/
def Obligations.DecodeEncodeRoundTrip : Prop :=
  ∀ (i : Instr) (rest : List Byte), i.wf = true → decode (encode i ++ rest) = .ok i rest

/-- The ten codes of the opcode table, as bare words, decode to their rows; the ethertype of ARP, the protocol of UDP, a
flags byte with only reserved bits, and a status that selects no row are rejected by name. The bare-word form, the order
in which an 8-bit word is looked up and the selector bytes are the model's (log 10). -/
def Obligations.TableCodesDecode : Prop :=
  decodeTableWord 16 0x0800 = some .ipv4Parse ∧ decodeTableWord 8 0x06 = some .tcpParse
  ∧ decodeTableWord 8 0x02 = some .flagSyn ∧ decodeTableWord 8 0x10 = some .flagAck
  ∧ decodeTableWord 8 0x01 = some .flagFin ∧ decodeTableWord 8 0x04 = some .flagRst
  ∧ decodeTableWord 8 0x08 = some .flagPsh ∧ decodeTableWord 8 0x20 = some .flagUrg
  ∧ decodeTableWord 8 0x00 = some .emitReport ∧ decodeTableWord 8 0xC1 = some .captureError
  ∧ decode [1, 0x08, 0x06] = .rejected (.ethertypeSkips 0x0806) ∧ decode [2, 17] = .rejected (.protocolSkips 17)
  ∧ decode [3, 0xC0] = .rejected (.noNamedFlag 0xC0) ∧ decode [4, 0x51] = .rejected (.statusSelectsNothing 0x51)

/-- The two dispatch comparisons "are equality tests on the whole field. The flag tests are single-bit tests" (R66): an
ethertype or a protocol selects its stage exactly when it is 0x0800 or 6, and a flags byte selects a flag's row exactly
when that one bit is set. The selector bytes are the model's (log 10). -/
def Obligations.DispatchTestsAreWholeFieldAndSingleBit : Prop :=
  (∀ (v : Nat) (rest : List Byte), v < 65536 →
    decode (1 :: (beBytes 2 v ++ rest)) = if v = 0x0800 then .ok .ipv4Parse rest else .rejected (.ethertypeSkips v))
  ∧ (∀ (v : Nat) (rest : List Byte), v < 256 →
    decode (2 :: (beBytes 1 v ++ rest)) = if v = 6 then .ok .tcpParse rest else .rejected (.protocolSkips v))
  ∧ (∀ (b : Byte) (f : Flag), f.row ∈ flagRows b ↔ b &&& f.mask ≠ 0)

/-- The twelve status codes of R251, in its order, and the three fields of each in the layout of R72 (the codes are the
spec's own decision D15). -/
def Obligations.StatusCodesHaveTheirLayout : Prop :=
  Cause.all.map Cause.code = [0x00, 0x51, 0x61, 0x91, 0xA1, 0xA2, 0xA3, 0xA4, 0xB1, 0xB2, 0xB3, 0xC1]
  ∧ ∀ c : Cause, statusClass c.code = c.classField ∧ statusStage c.code = c.stageField ∧ statusCause c.code = c.number

/-! ## The step -/

/-- With no reset planned, a step makes the operation the wired sequence has come to, and then moves the sequence on
(R13, R230, R231): after `NEXT_FRAME` to `ETH_PARSE` if a frame is in flight, after a stage to the stage `STAGE` points
at, after `RENDER` to the report if `STATUS` is 0x00, after the report to the status once nothing is pending, after which
the pass ends; with nothing come to, the running loop requests a frame; a halted block does nothing. The operation
register and the granularity are the model's (log 1), and so are that a halted block's step changes nothing (log 14) and
that a request refused with a frame in flight comes to `ETH_PARSE` too (log 21). -/
def Obligations.StepMakesTheNextOperation : Prop :=
  (∀ (s t : State) (i : Instr), s.resetIn = [] → s.op = some i → exec i { s with op := none } = .next t →
    step s = .next (sequence i t))
  ∧ (∀ s : State, s.resetIn = [] → s.op = none → s.loop = .running →
    ∀ t, exec .nextFrame s = .next t → step s = .next (sequence .nextFrame t))
  ∧ (∀ s : State, s.resetIn = [] → s.op = none → s.loop = .halted → step s = .next s)
  ∧ (∀ t : State, t.inFlight = true → (sequence .nextFrame t).op = some .ethParse)
  ∧ (∀ t : State, t.stage = .ip → (sequence .ethParse t).op = some .ipv4Parse)
  ∧ (∀ t : State, t.stage = .tcp → (sequence .ipv4Parse t).op = some .tcpParse)
  ∧ (∀ t : State, t.stage = .render → (sequence .tcpParse t).op = some .render)
  ∧ (∀ t : State, t.status = 0x00 → (sequence .render t).op = some .emitReport)
  ∧ (∀ t : State, t.pending ≠ none → (sequence .emitReport t).op = some .emitReport)
  ∧ (∀ t : State, t.pending = none → (sequence .emitReport t).op = some .emitDiag)
  ∧ (∀ t : State, sequence .emitDiag t = { t.endPass with op := none })

/-- An operation placed by its dispatch code is the one the very next step makes: with the selector of a code of the
opcode table set (R66, R67), the step is `exec` of the operation the code decodes to, and then the move of the wired
sequence. The placing is the model's (log 11), and so is what follows an operation out of its place (log 21). -/
def Obligations.PlacedCodeRunsNext : Prop :=
  ∀ (s : State) (nbits w : Nat) (i : Instr), decodeTableWord nbits w = some i →
    (s.withFetchWord nbits w).op = some i ∧ (s.withFetchWord nbits w).resetIn = []
    ∧ ∀ t, exec i { s.withFetchWord nbits w with op := none } = .next t →
        step (s.withFetchWord nbits w) = .next (sequence i t)

/-- Reset (R280), at any moment, in the halted block too: the loop runs, `STAGE` is idle, no frame is in flight, the pass
under way is abandoned with no status, a record not yet taken is dropped, no register keeps a value, and the host's inputs
stay the host's. A reset still `n + 1` operations away comes one operation nearer. The schedule is the model's, and so is
that the histories stay and that a dropped record uses up the sink's turn (log 8). -/
def Obligations.ResetAbandonsThePass : Prop :=
  (∀ (s : State) (rest : List Nat), s.resetIn = 0 :: rest →
    ∃ t, step s = .next t ∧ t.loop = .running ∧ t.stage = .idle ∧ t.op = none ∧ t.inFlight = false ∧ t.fb = []
      ∧ t.pv = Preview.unwritten s.epoch ∧ t.regs = Regs.unwritten s.epoch ∧ t.pending = none
      ∧ t.reportOut = s.reportOut ∧ t.diagOut = s.diagOut ∧ t.errorOut = s.errorOut ∧ t.answers = s.answers
      ∧ t.sink = (if s.pending = none then s.sink else s.sink.tail) ∧ t.sourceError = none ∧ t.resetIn = rest)
  ∧ (∀ (s : State) (n : Nat) (rest : List Nat), s.resetIn = (n + 1) :: rest →
    step s = stepOp { s with resetIn := n :: rest })

/-! ## The Ethernet stage -/

/-- `ETH.LENCHK` raises `Malformed(ETH_SHORT)`, status 0x91, "exactly when `L < 14`" (R101), and the frame is dropped
(R253). That a raise by itself ends the pass, with no frame in flight or a record pending too, is the model's (log 17). -/
def Obligations.EthLengthTest : Prop :=
  ∀ s : State,
    (s.len < 14 → ∃ t, exec .ethLenchk s = .next t ∧ Dropped s t 0x91)
    ∧ (14 ≤ s.len → exec .ethLenchk s = .next s)

/-- The three Ethernet fields (R102, R103, R104): six bytes at 0, six at 6, two at 12, first byte most significant; every
value is accepted, and nothing else changes. -/
def Obligations.EthFieldsExtracted : Prop :=
  ∀ (s : State) (bs : List Byte), FrameIn s bs → 14 ≤ bs.length →
    exec .ethDst s = .next { s with regs := { s.regs with ethDst := BitVec.ofNat 48 (Ref.field bs 0 6) } }
    ∧ exec .ethSrc s = .next { s with regs := { s.regs with ethSrc := BitVec.ofNat 48 (Ref.field bs 6 6) } }
    ∧ exec .ethType s = .next { s with regs := { s.regs with ethType := BitVec.ofNat 16 (Ref.field bs 12 2) } }
    ∧ (∀ hi lo : Byte, bs[12]? = some hi → bs[13]? = some lo → Ref.field bs 12 2 = hi.toNat * 256 + lo.toNat)

/-- `ETH.REST` gives the slice `(14, L - 14)` (R105); `ETH.DISPATCH` tests equality on all 16 bits: 0x0800 moves `STAGE`
to `IP`, every other value raises `Skip(ETHERTYPE)`, status 0x51 (R106; the value 0x0800 is the spec's decision D4), and the frame is dropped (R253). That a raise by itself
ends the pass, with no frame in flight or a record pending too, is the model's (log 17). -/
def Obligations.EthSliceAndDispatch : Prop :=
  ∀ s : State,
    (14 ≤ s.len → exec .ethRest s = .next { s with regs := { s.regs with ipOff := 14, ipLen := s.len - 14 } })
    ∧ (s.regs.ethType = 0x0800 → exec .ethDispatch s = .next { s with stage := .ip })
    ∧ (s.regs.ethType ≠ 0x0800 → ∃ t, exec .ethDispatch s = .next t ∧ Dropped s t 0x51)

/-- `ETH_PARSE` (R100): the six operations in order after `STAGE <- ETH`, the first that raises ending stage and pass
(R253); what it leaves of a frame, raised or not. That each operation of the sequence can be made by itself, its raise
ending the pass, and that a raise with no frame in flight or a record pending is taken alike, is the model's (log 17). -/
def Obligations.EthStage : Prop :=
  (∀ s : State, s.inFlight = true →
    exec .ethParse s = execAll [.ethLenchk, .ethDst, .ethSrc, .ethType, .ethRest, .ethDispatch] { s with stage := .eth })
  ∧ ∀ (s : State) (bs : List Byte), FrameIn s bs →
    match Ref.ethCause bs with
    | some c => ∃ t, exec .ethParse s = .next t ∧ Dropped s t c.code
    | none =>
      exec .ethParse s = .next { s with
        stage := .ip
        regs := { s.regs with
          ethDst := BitVec.ofNat 48 (Ref.field bs 0 6)
          ethSrc := BitVec.ofNat 48 (Ref.field bs 6 6)
          ethType := BitVec.ofNat 16 (Ref.field bs 12 2)
          ipOff := 14
          ipLen := bs.length - 14 } }

/-! ## The IPv4 stage -/

/-- The IPv4 tests: `IP.LENCHK` raises 0xA1 exactly when `IP_LEN < 20` (R121), `IP.HLENCHK` 0xA3 exactly when
`IP_HLEN > IP_LEN` (R124), `IP.DISPATCH` 0x61 exactly when `IP_PROTO` is not 6, else `STAGE <- TCP` (R130); on a raise the
frame is dropped (R253). That a raise by itself ends the pass, with no frame in flight or a record pending too, is the
model's (log 17). -/
def Obligations.IpTests : Prop :=
  ∀ s : State,
    (s.regs.ipLen < 20 → ∃ t, exec .ipLenchk s = .next t ∧ Dropped s t 0xA1)
    ∧ (20 ≤ s.regs.ipLen → exec .ipLenchk s = .next s)
    ∧ (s.regs.ipLen < s.regs.ipHlen → ∃ t, exec .ipHlenchk s = .next t ∧ Dropped s t 0xA3)
    ∧ (s.regs.ipHlen ≤ s.regs.ipLen → exec .ipHlenchk s = .next s)
    ∧ (s.regs.ipProto ≠ 6 → ∃ t, exec .ipDispatch s = .next t ∧ Dropped s t 0x61)
    ∧ (s.regs.ipProto = 6 → exec .ipDispatch s = .next { s with stage := .tcp })

/-- The five IPv4 fields (R122, R125 to R128): one byte at 14, two at 16, one at 23, four at 26, four at 30, read inside the slice
`(IP_OFF, IP_LEN)` (R45, R53). No value is tested, the version nibble neither. -/
def Obligations.IpFieldsExtracted : Prop :=
  ∀ (s : State) (bs : List Byte), FrameIn s bs →
    (InSlice bs s.regs.ipOff s.regs.ipLen 14 1 →
      exec .ipVihl s = .next { s with regs := { s.regs with ipVihl := BitVec.ofNat 8 (Ref.field bs 14 1) } })
    ∧ (InSlice bs s.regs.ipOff s.regs.ipLen 16 2 →
      exec .ipTotlen s = .next { s with regs := { s.regs with ipTotlen := BitVec.ofNat 16 (Ref.field bs 16 2) } })
    ∧ (InSlice bs s.regs.ipOff s.regs.ipLen 23 1 →
      exec .ipProto s = .next { s with regs := { s.regs with ipProto := BitVec.ofNat 8 (Ref.field bs 23 1) } })
    ∧ (InSlice bs s.regs.ipOff s.regs.ipLen 26 4 →
      exec .ipSrc s = .next { s with regs := { s.regs with ipSrc := BitVec.ofNat 32 (Ref.field bs 26 4) } })
    ∧ (InSlice bs s.regs.ipOff s.regs.ipLen 30 4 →
      exec .ipDst s = .next { s with regs := { s.regs with ipDst := BitVec.ofNat 32 (Ref.field bs 30 4) } })

/-- `IP.HLEN` (R123): with `IHL` the low nibble of `IP_VIHL`, it raises 0xA2 exactly when `IHL` is below 5, else
`IP_HLEN` becomes `IHL * 4`. The minimum is the spec's own decision D9. On a raise the frame is dropped (R253); that a raise
by itself ends the pass, with no frame in flight or a record pending too, is the model's (log 17). -/
def Obligations.IpHeaderLength : Prop :=
  ∀ s : State,
    (s.regs.ipVihl.toNat % 16 < 5 → ∃ t, exec .ipHlen s = .next t ∧ Dropped s t 0xA2)
    ∧ (5 ≤ s.regs.ipVihl.toNat % 16 →
      exec .ipHlen s = .next { s with regs := { s.regs with ipHlen := s.regs.ipVihl.toNat % 16 * 4 } })

/-- `IP.SLICE` (R129): it raises 0xA4 exactly when the total length is smaller than the header length, else the slice
starts at `14 + IP_HLEN` and has the smaller of the declared and the remaining length. The raise is the spec's own
decision D11. On a raise the frame is dropped (R253); that a raise by itself ends the pass, with no frame in flight or a
record pending too, is the model's (log 17). -/
def Obligations.IpPayloadSlice : Prop :=
  ∀ s : State,
    (s.regs.ipTotlen.toNat < s.regs.ipHlen → ∃ t, exec .ipSlice s = .next t ∧ Dropped s t 0xA4)
    ∧ (s.regs.ipHlen ≤ s.regs.ipTotlen.toNat → s.regs.ipHlen ≤ s.regs.ipLen →
      exec .ipSlice s = .next { s with regs := { s.regs with
        segOff := 14 + s.regs.ipHlen
        segLen := min (s.regs.ipTotlen.toNat - s.regs.ipHlen) (s.regs.ipLen - s.regs.ipHlen) } })

/-- `IPV4_PARSE` (R120): the ten operations in order, the first that raises ending stage and pass (R253), all four
`Malformed` tests before the protocol test (the spec's decision D13); what it leaves of a frame the Ethernet stage has
passed. That each operation of the sequence can be made by itself, its raise ending the pass, and that a raise with no
frame in flight or a record pending is taken alike, is the model's (log 17). -/
def Obligations.Ipv4Stage : Prop :=
  (∀ s : State, s.inFlight = true →
    exec .ipv4Parse s =
      execAll [.ipLenchk, .ipVihl, .ipHlen, .ipHlenchk, .ipTotlen, .ipProto, .ipSrc, .ipDst, .ipSlice, .ipDispatch] s)
  ∧ ∀ (s : State) (bs : List Byte), FrameIn s bs → 14 ≤ bs.length → s.regs.ipOff = 14 →
    s.regs.ipLen = bs.length - 14 →
    match Ref.ipCause bs with
    | some c => ∃ t, exec .ipv4Parse s = .next t ∧ Dropped s t c.code
    | none =>
      exec .ipv4Parse s = .next { s with
        stage := .tcp
        regs := { s.regs with
          ipVihl := BitVec.ofNat 8 (Ref.field bs 14 1)
          ipHlen := Ref.ipHlen bs
          ipTotlen := BitVec.ofNat 16 (Ref.totlen bs)
          ipProto := 6
          ipSrc := BitVec.ofNat 32 (Ref.field bs 26 4)
          ipDst := BitVec.ofNat 32 (Ref.field bs 30 4)
          segOff := Ref.segOff bs
          segLen := Ref.segLen bs } }

/-! ## The TCP stage -/

/-- The TCP tests: `TCP.LENCHK` raises 0xB1 exactly when `SEG_LEN < 20` (R151), `TCP.DOFFMIN` 0xB2 exactly when the data
offset is below 5 (R157), `TCP.HLENCHK` 0xB3 exactly when `TCP_HLEN > SEG_LEN` (R158); on a raise the frame is dropped
(R253). That a raise by itself ends the pass, with no frame in flight or a record pending too, is the model's (log 17). -/
def Obligations.TcpTests : Prop :=
  ∀ s : State,
    (s.regs.segLen < 20 → ∃ t, exec .tcpLenchk s = .next t ∧ Dropped s t 0xB1)
    ∧ (20 ≤ s.regs.segLen → exec .tcpLenchk s = .next s)
    ∧ (s.regs.tcpDoff.toNat < 5 → ∃ t, exec .tcpDoffmin s = .next t ∧ Dropped s t 0xB2)
    ∧ (5 ≤ s.regs.tcpDoff.toNat → exec .tcpDoffmin s = .next s)
    ∧ (s.regs.segLen < s.regs.tcpHlen → ∃ t, exec .tcpHlenchk s = .next t ∧ Dropped s t 0xB3)
    ∧ (s.regs.tcpHlen ≤ s.regs.segLen → exec .tcpHlenchk s = .next s)

/-- Six TCP fields (R152 to R155, R159, R160): two bytes at `SEG_OFF`, two at +2, four at +4, four at +8, one at +13, two
at +14, read inside the slice `(SEG_OFF, SEG_LEN)` (R45, R53); every value is accepted. -/
def Obligations.TcpFieldsExtracted : Prop :=
  ∀ (s : State) (bs : List Byte), FrameIn s bs →
    (InSlice bs s.regs.segOff s.regs.segLen s.regs.segOff 2 →
      exec .tcpSport s =
        .next { s with regs := { s.regs with tcpSport := BitVec.ofNat 16 (Ref.field bs s.regs.segOff 2) } })
    ∧ (InSlice bs s.regs.segOff s.regs.segLen (s.regs.segOff + 2) 2 →
      exec .tcpDport s =
        .next { s with regs := { s.regs with tcpDport := BitVec.ofNat 16 (Ref.field bs (s.regs.segOff + 2) 2) } })
    ∧ (InSlice bs s.regs.segOff s.regs.segLen (s.regs.segOff + 4) 4 →
      exec .tcpSeq s =
        .next { s with regs := { s.regs with tcpSeq := BitVec.ofNat 32 (Ref.field bs (s.regs.segOff + 4) 4) } })
    ∧ (InSlice bs s.regs.segOff s.regs.segLen (s.regs.segOff + 8) 4 →
      exec .tcpAck s =
        .next { s with regs := { s.regs with tcpAck := BitVec.ofNat 32 (Ref.field bs (s.regs.segOff + 8) 4) } })
    ∧ (InSlice bs s.regs.segOff s.regs.segLen (s.regs.segOff + 13) 1 →
      exec .tcpFlags s =
        .next { s with regs := { s.regs with tcpFlags := BitVec.ofNat 8 (Ref.field bs (s.regs.segOff + 13) 1) } })
    ∧ (InSlice bs s.regs.segOff s.regs.segLen (s.regs.segOff + 14) 2 →
      exec .tcpWin s =
        .next { s with regs := { s.regs with tcpWin := BitVec.ofNat 16 (Ref.field bs (s.regs.segOff + 14) 2) } })

/-- `TCP.DOFF` (R156): the high nibble of byte 12 of the segment, read inside the slice `(SEG_OFF, SEG_LEN)` (R45, R53), and
four times it; the low nibble does not matter. -/
def Obligations.TcpDataOffset : Prop :=
  ∀ (s : State) (bs : List Byte) (b : Byte), FrameIn s bs → bs[s.regs.segOff + 12]? = some b →
    13 ≤ s.regs.segLen →
    exec .tcpDoff s = .next { s with regs := { s.regs with
      tcpDoff := BitVec.ofNat 4 (b.toNat / 16)
      tcpHlen := b.toNat / 16 * 4 } }

/-- `TCP.FLAGSET` (R161): bit by bit, FLAGSET[0] is TCP_FLAGS[1], [1] is [4], [2] is [0], [3] is [2], [4] is [3], [5] is
[5]; the two reserved bits do not matter, nor does what `FLAGSET` held before. -/
def Obligations.FlagSetDecoded : Prop :=
  ∀ s : State, ∃ fs : BitVec 6,
    exec .tcpFlagset s = .next { s with regs := { s.regs with flagset := fs } }
    ∧ fs = Ref.flagset s.regs.tcpFlags.toNat
    ∧ fs.getLsbD 0 = s.regs.tcpFlags.getLsbD 1 ∧ fs.getLsbD 1 = s.regs.tcpFlags.getLsbD 4
    ∧ fs.getLsbD 2 = s.regs.tcpFlags.getLsbD 0 ∧ fs.getLsbD 3 = s.regs.tcpFlags.getLsbD 2
    ∧ fs.getLsbD 4 = s.regs.tcpFlags.getLsbD 3 ∧ fs.getLsbD 5 = s.regs.tcpFlags.getLsbD 5

/-- Each of the six flag rows (R67, R161) sets its own bit of `FLAGSET` to its own bit test of `TCP_FLAGS` and leaves the
other five bits as they were. That a row made by itself touches one bit is the model's reading (log 19). -/
def Obligations.FlagRowsAreIndependent : Prop :=
  ∀ (f : Flag) (i : Instr) (s : State),
    (f, i) ∈ [(Flag.syn, Instr.flagSyn), (.ack, .flagAck), (.fin, .flagFin), (.rst, .flagRst), (.psh, .flagPsh),
      (.urg, .flagUrg)] →
    ∃ fs : BitVec 6,
      exec i s = .next { s with regs := { s.regs with flagset := fs } }
      ∧ (fs.getLsbD f.index = true ↔ s.regs.tcpFlags &&& f.mask ≠ 0)
      ∧ (∀ k, k ≠ f.index → fs.getLsbD k = s.regs.flagset.getLsbD k)

/-- `TCP.PAYLOAD` (R162): the payload starts after the header and is what is left of the segment; `STAGE <- RENDER`. -/
def Obligations.TcpPayloadSlice : Prop :=
  ∀ s : State, s.regs.tcpHlen ≤ s.regs.segLen →
    exec .tcpPayload s = .next { s with
      stage := .render
      regs := { s.regs with
        payOff := s.regs.segOff + s.regs.tcpHlen
        payLen := s.regs.segLen - s.regs.tcpHlen } }

/-- `TCP_PARSE` (R150): the twelve operations in order (the spec's decision D14), the first that raises ending stage and
pass (R253); what it leaves of a segment inside the frame. That each operation of the sequence can be made by itself, its
raise ending the pass, and that a raise with no frame in flight or a record pending is taken alike, is the model's (log
17). -/
def Obligations.TcpStage : Prop :=
  (∀ s : State, s.inFlight = true →
    exec .tcpParse s =
      execAll [.tcpLenchk, .tcpSport, .tcpDport, .tcpSeq, .tcpAck, .tcpDoff, .tcpDoffmin, .tcpHlenchk, .tcpFlags, .tcpWin,
        .tcpFlagset, .tcpPayload] s)
  ∧ ∀ (s : State) (bs : List Byte), FrameIn s bs → s.regs.segOff + s.regs.segLen ≤ bs.length →
    match Ref.tcpCauseAt bs s.regs.segOff s.regs.segLen with
    | some c => ∃ t, exec .tcpParse s = .next t ∧ Dropped s t c.code
    | none =>
      exec .tcpParse s = .next { s with
        stage := .render
        regs := { s.regs with
          tcpSport := BitVec.ofNat 16 (Ref.field bs s.regs.segOff 2)
          tcpDport := BitVec.ofNat 16 (Ref.field bs (s.regs.segOff + 2) 2)
          tcpSeq := BitVec.ofNat 32 (Ref.field bs (s.regs.segOff + 4) 4)
          tcpAck := BitVec.ofNat 32 (Ref.field bs (s.regs.segOff + 8) 4)
          tcpDoff := BitVec.ofNat 4 (Ref.doffAt bs s.regs.segOff)
          tcpHlen := Ref.doffAt bs s.regs.segOff * 4
          tcpFlags := BitVec.ofNat 8 (Ref.field bs (s.regs.segOff + 13) 1)
          tcpWin := BitVec.ofNat 16 (Ref.field bs (s.regs.segOff + 14) 2)
          flagset := Ref.flagset (Ref.field bs (s.regs.segOff + 13) 1)
          payOff := s.regs.segOff + Ref.doffAt bs s.regs.segOff * 4
          payLen := s.regs.segLen - Ref.doffAt bs s.regs.segOff * 4 } }

/-! ## The report stage -/

/-- `PREVIEW.LEN` (R192): `PV_LEN` becomes the smaller of `PAY_LEN` and 64, which its seven bits hold. -/
def Obligations.PreviewLength : Prop :=
  ∀ s : State, ∃ n : BitVec 7,
    exec .previewLen s = .next { s with regs := { s.regs with pvLen := n } } ∧ n.toNat = min s.regs.payLen 64

/-- `PREVIEW.CHAR` (R193): 0x20 to 0x7E are kept, every other byte becomes 0x2E (the spec's decision D19). Where the
result stands is the model's (log 12). -/
def Obligations.PreviewCharSubstitutes : Prop :=
  ∀ (b : Byte) (s : State),
    exec (.previewChar b) s =
      .next { s with charOut := if 0x20 ≤ b.toNat ∧ b.toNat ≤ 0x7E then b else 0x2E }

/-- `PREVIEW.BUILD` (R194), with a `PV_LEN` of at most `PAY_LEN` (R192) and a payload whose first `PV_LEN` bytes are in the
frame: `PV[i]` becomes the substituted payload byte `i` for every `i` below `PV_LEN`, and every other byte of `PV`, and
everything else, stays. -/
def Obligations.PreviewBuilt : Prop :=
  ∀ (s : State) (bs : List Byte), FrameIn s bs → s.regs.pvLen.toNat ≤ 64 → s.regs.pvLen.toNat ≤ s.regs.payLen →
    s.regs.payOff + s.regs.pvLen.toNat ≤ bs.length →
    ∃ pv : Preview, exec .previewBuild s = .next { s with pv := pv }
      ∧ (∀ (i : Nat) (b : Byte), i < s.regs.pvLen.toNat → bs[s.regs.payOff + i]? = some b →
        pv[i]? = some (if 0x20 ≤ b.toNat ∧ b.toNat ≤ 0x7E then b else 0x2E))
      ∧ (∀ a : Nat, s.regs.pvLen.toNat ≤ a → pv[a]? = s.pv[a]?)

/-- `REPORT.ASSEMBLE` (R191): the thirteen fields are copies of the registers and of the first `PV_LEN` bytes of `PV`, the
three lengths being numbers within their ranges (R19, R21; that `payload_len` is the full length is the spec's decision
D17). -/
def Obligations.RecordAssembled : Prop :=
  ∀ s : State, s.regs.tcpHlen < 64 → s.regs.payLen < 65536 → s.regs.pvLen.toNat ≤ 64 →
    ∃ preview : List Byte, preview.length = s.regs.pvLen.toNat
      ∧ (∀ i, i < s.regs.pvLen.toNat → preview[i]? = s.pv[i]?)
      ∧ exec .reportAssemble s = .next { s with regs := { s.regs with report :=
          { ipSrc := s.regs.ipSrc
            ipDst := s.regs.ipDst
            ipTotalLength := s.regs.ipTotlen
            srcPort := s.regs.tcpSport
            dstPort := s.regs.tcpDport
            seq := s.regs.tcpSeq
            ack := s.regs.tcpAck
            headerLen := BitVec.ofNat 6 s.regs.tcpHlen
            window := s.regs.tcpWin
            flags := s.regs.flagset
            payloadLen := BitVec.ofNat 16 s.regs.payLen
            previewLen := s.regs.pvLen
            preview := preview } } }

/-- `RENDER` (R190): `PREVIEW.LEN`, `PREVIEW.BUILD` and `REPORT.ASSEMBLE` in order, then `STATUS <- 0x00`; it cannot fail
on a payload inside the frame (its length and the header's within R21's fields), `PV` then holds the substituted first
bytes of the payload and is otherwise as before, and nothing but `PV_LEN`, `PV`, the record and `STATUS` changes. -/
def Obligations.RenderStage : Prop :=
  (∀ s : State, s.inFlight = true →
    exec .render s =
      match execAll [.previewLen, .previewBuild, .reportAssemble] s with
      | .next t => .next { t with status := 0x00 }
      | .fault f => .fault f
      | .refused r => .refused r)
  ∧ ∀ (s : State) (bs : List Byte), FrameIn s bs → s.regs.payOff + s.regs.payLen ≤ bs.length →
    s.regs.tcpHlen < 64 → s.regs.payLen < 65536 →
    ∃ pv : Preview, exec .render s = .next { s with
        status := 0x00
        pv := pv
        regs := { s.regs with
          pvLen := BitVec.ofNat 7 (min s.regs.payLen 64)
          report :=
            { ipSrc := s.regs.ipSrc
              ipDst := s.regs.ipDst
              ipTotalLength := s.regs.ipTotlen
              srcPort := s.regs.tcpSport
              dstPort := s.regs.tcpDport
              seq := s.regs.tcpSeq
              ack := s.regs.tcpAck
              headerLen := BitVec.ofNat 6 s.regs.tcpHlen
              window := s.regs.tcpWin
              flags := s.regs.flagset
              payloadLen := BitVec.ofNat 16 s.regs.payLen
              previewLen := BitVec.ofNat 7 (min s.regs.payLen 64)
              preview := Ref.preview ((bs.drop s.regs.payOff).take s.regs.payLen) } } }
      ∧ (∀ (i : Nat) (b : Byte), i < min s.regs.payLen 64 → bs[s.regs.payOff + i]? = some b →
        pv[i]? = some (if 0x20 ≤ b.toNat ∧ b.toNat ≤ 0x7E then b else 0x2E))
      ∧ (∀ a : Nat, min s.regs.payLen 64 ≤ a → pv[a]? = s.pv[a]?)

/-! ## The reference text -/

/-- `FLAGS_TEXT` (R195): the names `SYN`, `ACK`, `FIN`, `RST`, `PSH`, `URG`, in this order, of the bits 0 to 5 that are
set, joined by a comma and a space; `(none)` for the empty set. Where the text stands is the model's (log 12). -/
def Obligations.FlagsTextJoinsNames : Prop :=
  ∀ (fs : BitVec 6) (s : State),
    exec (.flagsText fs) s = .next { s with
      textOut := if fs = 0 then ascii "(none)"
        else (ascii ", ").intercalate
          ((([(0, "SYN"), (1, "ACK"), (2, "FIN"), (3, "RST"), (4, "PSH"), (5, "URG")] : List (Nat × String)).filter
            (fun p => fs.getLsbD p.1)).map (fun p => ascii p.2)) }

/-- `IPV4_TEXT` (R196): four numbers, first header byte first, with full stops between. -/
def Obligations.Ipv4TextIsDottedDecimal : Prop :=
  ∀ (a : Word) (s : State),
    exec (.ipv4Text a) s = .next { s with
      textOut := decText (a.toNat / 16777216) ++ ascii "." ++ decText (a.toNat / 65536 % 256) ++ ascii "."
        ++ decText (a.toNat / 256 % 256) ++ ascii "." ++ decText (a.toNat % 256) }

/-- `DEC_TEXT` (R197): ASCII digits only, their base-10 value is the number, no leading zero but the single digit 0. -/
def Obligations.DecTextIsShortestDecimal : Prop :=
  ∀ (v : Nat) (s : State), ∃ d : List Byte,
    exec (.decText v) s = .next { s with textOut := d }
    ∧ (∀ c ∈ d, 0x30 ≤ c.toNat ∧ c.toNat ≤ 0x39)
    ∧ d.foldl (fun acc c => acc * 10 + (c.toNat - 0x30)) 0 = v
    ∧ d ≠ [] ∧ (d.head? = some 0x30 → v = 0 ∧ d = [0x30])

/-- `RENDER_TEXT` (R198): the six lines, each ended by one line feed, and the Preview line exactly when there is a
payload. -/
def Obligations.RenderTextLines : Prop :=
  ∀ (r : PacketReport) (s : State), r.wf = true →
    exec (.renderText r) s = .next { s with
      textOut := ascii "TCP Packet\n"
        ++ (ascii " IP Layer: src=" ++ ipv4Text r.ipSrc ++ ascii ", dst=" ++ ipv4Text r.ipDst ++ ascii ", total_length="
          ++ decText r.ipTotalLength.toNat ++ ascii "\n")
        ++ (ascii " TCP Layer: src_port=" ++ decText r.srcPort.toNat ++ ascii ", dst_port=" ++ decText r.dstPort.toNat
          ++ ascii ", seq=" ++ decText r.seq.toNat ++ ascii ", ack=" ++ decText r.ack.toNat ++ ascii ",\n")
        ++ (ascii "            header_len=" ++ decText r.headerLen.toNat ++ ascii ", window=" ++ decText r.window.toNat
          ++ ascii "\n")
        ++ (ascii " Flags: " ++ flagsText r.flags ++ ascii "\n")
        ++ (ascii " Payload: " ++ decText r.payloadLen.toNat ++ ascii " bytes\n")
        ++ (if r.payloadLen = 0 then [] else ascii "   Preview: " ++ r.preview ++ ascii "\n") }

/-! ## The pass, the loop and the host -/

/-- `NEXT_FRAME` (R232), with `STAGE` idle, the loop running, no frame in flight and no record pending: with no answer yet
the core waits (waiting repeats the state: the model's, log 6); a frame answered is in the buffer, its length in `L`, and
in flight, and `STATUS` is a free value, whatever the last pass left in it (R22; that it is renewed here is the model's
reading, log 18, and so is the counter of the free values, log 2); an error answered raises `CaptureError`, which the model takes in the same operation (log 13). -/
def Obligations.NextFrameTakesTheAnswer : Prop :=
  ∀ s : State, s.loop = .running → s.stage = .idle → s.inFlight = false → s.pending = none →
    (s.answers = [] → exec .nextFrame s = .next s)
    ∧ (∀ bs rest, s.answers = .frame bs :: rest →
      ∃ m, exec .nextFrame s = .next { s with
          answers := rest
          fb := m
          len := bs.length
          inFlight := true
          status := Config.unwrittenBits 8 .status s.epoch
          epoch := s.epoch + 1 }
        ∧ ∀ i, Memory.read m i = bs[i]?)
    ∧ (∀ e rest, s.answers = .error e :: rest →
      exec .nextFrame s = .next { s with
        answers := rest
        sourceError := some e
        loop := .halted
        stage := .idle
        status := 0xC1
        diagOut := s.diagOut ++ [0xC1]
        errorOut := s.errorOut ++ [e] })

/-- Where `LOOP` is not running, or `STAGE` not idle, or a frame in flight, or a record pending, no request is made and
nothing changes (R232, R237, R241, R286; that the operation then does nothing is the model's, log 14). -/
def Obligations.NoRequestOutOfTurn : Prop :=
  ∀ s : State, s.loop = .halted ∨ s.stage ≠ .idle ∨ s.inFlight = true ∨ s.pending ≠ none →
    exec .nextFrame s = .next s ∧ exec .run s = .next s

/-- "no further NEXT_FRAME request is ever made" once halted (R235), and only reset leads out (R255): a halted block steps
to itself for ever, until reset. That its step changes nothing at all is the model's (log 14). -/
def Obligations.HaltedStaysHalted : Prop :=
  ∀ (s : State) (k : Nat), Inv s → s.loop = .halted → s.resetIn = [] → Host.Core.run core k s = .next s

/-- `EMIT_REPORT` (R233) hands over the record of the pass, once, by value, when the sink takes it, and leaves it pending
while the sink does not (R286); `EMIT_DIAG` (R234) puts the 8-bit status code on `DIAG_OUT`. Nothing else changes. The
sink's turns are the model's (log 7), and so are that a channel is the list of what it has carried (log 9) and that
another record already pending, which no run has, gives way to this one (log 17). -/
def Obligations.EmissionsAppend : Prop :=
  ∀ s : State,
    (s.sink = [] →
      exec .emitReport s = .next { s with reportOut := s.reportOut ++ [s.regs.report], pending := none })
    ∧ (∀ rest, s.sink = .takesAfter 0 :: rest →
      exec .emitReport s =
        .next { s with reportOut := s.reportOut ++ [s.regs.report], pending := none, sink := rest })
    ∧ (∀ n rest, s.sink = .takesAfter (n + 1) :: rest →
      exec .emitReport s = .next { s with pending := some s.regs.report, sink := .takesAfter n :: rest })
    ∧ (∀ rest, s.sink = .never :: rest → exec .emitReport s = .next { s with pending := some s.regs.report })
    ∧ exec .emitDiag s = .next { s with diagOut := s.diagOut ++ [s.status] }

/-- "a sink that is slow to take a record delays the next `NEXT_FRAME` request by as long"; "a sink that never takes a
record stops the block for ever with a report pending" (R286, U7): with the record of a pass to hand over, each step is
one turn of waiting with `LOOP` as it was and no request made, until the sink takes it; if it never does, for ever. A sink
with no turn listed takes it at once. The sink's turns are the model's (log 7), and so is that another record already
pending, which no run has, gives way to this one (log 17). -/
def Obligations.SinkHoldsTheBlock : Prop :=
  ∀ s : State, s.op = some .emitReport → s.resetIn = [] →
    (s.sink.head? = some .never → ∀ k,
      Host.Core.run core (k + 1) s = .next { s with pending := some s.regs.report })
    ∧ (∀ n rest, s.sink = .takesAfter n :: rest →
      Host.Core.run core n s = .next { s with
          pending := if n = 0 then s.pending else some s.regs.report
          sink := .takesAfter 0 :: rest }
      ∧ Host.Core.run core (n + 1) s = .next { s with
          reportOut := s.reportOut ++ [s.regs.report]
          pending := none
          sink := rest
          op := some .emitDiag })
    ∧ (s.sink = [] →
      step s = .next { s with
        reportOut := s.reportOut ++ [s.regs.report]
        pending := none
        op := some .emitDiag })

/-- `CAPTURE_ERROR` (R235): the loop halts, 0xC1 to `STATUS` and `DIAG_OUT`, `STAGE` idle, the error value to the host
unchanged; no report is touched. -/
def Obligations.CaptureErrorHalts : Prop :=
  ∀ (s : State) (e : SourceError), s.sourceError = some e →
    exec .captureError s = .next { s with
      loop := .halted
      stage := .idle
      status := 0xC1
      diagOut := s.diagOut ++ [0xC1]
      errorOut := s.errorOut ++ [e] }

/-- `RUN` (R231) unfolds one answer at a time: no answer left, it waits; a frame, it makes the pass and goes on; an error,
it halts. `RUN` as a fold over the answers is the spec's decision D2 and the model's (log 20). -/
def Obligations.RunFoldsTheAnswers : Prop :=
  ∀ s : State, s.loop = .running → s.stage = .idle → s.inFlight = false → s.pending = none →
    (s.answers = [] → exec .run s = .next s)
    ∧ (∀ e rest, s.answers = .error e :: rest → exec .run s = exec .nextFrame s)
    ∧ (∀ bs rest t u, s.answers = .frame bs :: rest → exec .nextFrame s = .next t → exec .framePass t = .next u →
      exec .run s = exec .run u)

/-- `RUN` as the fold over a finite list of answers (the spec's decision D2; the model's, logs 6 and 20: R231 itself lets
the loop run for ever). From any idle running state, whatever bytes the frames hold, it ends halted, or waiting with every
answer used, or with a record pending that the sink never takes (log 7), and what it has put on `REPORT_OUT` is a first
part of the records of the frames answered. If the sink takes what it is offered, `REPORT_OUT` has "exactly the records of
the frames answered so far whose passes ended in `Report`, in order" (R282), `DIAG_OUT` one code for each pass and 0xC1 for
the halt (R234), and the loop is halted exactly when an answer is an error. -/
def Obligations.RunCompletes : Prop :=
  ∀ s : State, s.loop = .running → s.stage = .idle → s.inFlight = false → s.pending = none →
    (∃ t n, exec .run s = .next t ∧ (t.loop = .halted ∨ t.answers = [] ∨ t.pending ≠ none)
      ∧ (t.loop = .halted → ∃ e, SourceAnswer.error e ∈ s.answers)
      ∧ t.reportOut ++ t.pending.toList = s.reportOut ++ (Ref.recordsOf s.answers).take n)
    ∧ (SinkTurn.never ∉ s.sink →
      ∃ t, exec .run s = .next t ∧ (t.loop = .halted ∨ t.answers = [])
        ∧ (t.loop = .halted ↔ ∃ e, SourceAnswer.error e ∈ s.answers) ∧ t.pending = none
        ∧ t.reportOut = s.reportOut ++ Ref.recordsOf s.answers ∧ t.diagOut = s.diagOut ++ Ref.codesOf s.answers)

/-- HEADLINE. `FRAME_PASS` (R230) on any frame whatever ends with exactly the outcome of the first condition the frame
meets in the order of R252, with the conditions and codes of R251: one status code, one report exactly when the code is
0x00, the report's thirteen fields read off the frame's bytes (R191), nothing else changed (R253). A record that the sink
never takes is left pending and the pass is not over (R286; the sink's turns are the model's, log 7). That a pass made
out of its place drops a record left pending before it, or offers its own in its place, is the model's (log 17). -/
def Obligations.FramePassMeetsTheReference : Prop :=
  ∀ (s : State) (bs : List Byte), FrameIn s bs →
    (Ref.verdict bs ≠ .report ∨ s.sink.head? ≠ some .never →
      ∃ t, exec .framePass s = .next t ∧ PassOver s t
        ∧ t.status = (Ref.verdict bs).code
        ∧ t.diagOut = s.diagOut ++ [(Ref.verdict bs).code]
        ∧ t.reportOut = s.reportOut ++ (if Ref.verdict bs = .report then [Ref.report bs] else [])
        ∧ t.sink = (if Ref.verdict bs = .report then s.sink.tail else s.sink))
    ∧ (Ref.verdict bs = .report → s.sink.head? = some .never →
      ∃ t, exec .framePass s = .next t ∧ t.pending = some (Ref.report bs) ∧ t.regs.report = Ref.report bs
        ∧ t.status = 0x00 ∧ t.stage = .render ∧ t.op = some .emitReport ∧ t.loop = s.loop ∧ t.inFlight = s.inFlight
        ∧ FrameIn t bs ∧ t.reportOut = s.reportOut ∧ t.diagOut = s.diagOut ∧ t.errorOut = s.errorOut
        ∧ t.answers = s.answers ∧ t.sink = s.sink ∧ t.sourceError = s.sourceError ∧ t.resetIn = s.resetIn
        ∧ t.charOut = s.charOut ∧ t.textOut = s.textOut)

/-- HEADLINE. The reference encoder (R74): the pass on an encoded frame yields a report with exactly the fields put in,
whatever the bytes of any value, the options and the trailing bytes; the sink has taken it, or is offered it for ever
(R286, log 7). A record left pending before the pass is gone in its favour (the model's, log 17). -/
def Obligations.ReferenceFrameRoundTrip : Prop :=
  ∀ (f : FrameSpec) (s : State), f.wf = true → FrameIn s (encodeFrame f) →
    ∃ t, exec .framePass s = .next t ∧ t.status = 0x00
      ∧ t.reportOut ++ t.pending.toList = s.reportOut ++ [Ref.expected f]
      ∧ (s.sink.head? ≠ some .never → PassOver s t ∧ t.diagOut = s.diagOut ++ [0x00]
        ∧ t.reportOut = s.reportOut ++ [Ref.expected f])

/-- "The outcome of a pass, its record included, is a function of that pass's FB[0..L-1] and L and of nothing else"
(R238): two states that agree on the buffer and the length, and on nothing else, send the same, or stop alike. That a record
the sink has not taken is counted as sent, and its status withheld meanwhile, is the model's (log 7), and so is that a
record left pending before the pass is gone (log 17). -/
def Obligations.PassDependsOnTheFrameAlone : Prop :=
  ∀ s₁ s₂ : State, s₁.fb = s₂.fb → s₁.len = s₂.len →
    (∃ t₁ t₂ records code, exec .framePass s₁ = .next t₁ ∧ exec .framePass s₂ = .next t₂
      ∧ t₁.reportOut ++ t₁.pending.toList = s₁.reportOut ++ records
      ∧ t₂.reportOut ++ t₂.pending.toList = s₂.reportOut ++ records
      ∧ t₁.status = code ∧ t₂.status = code
      ∧ (t₁.pending = none → t₁.diagOut = s₁.diagOut ++ [code])
      ∧ (t₂.pending = none → t₂.diagOut = s₂.diagOut ++ [code]))
    ∨ ∃ f, exec .framePass s₁ = .fault f ∧ exec .framePass s₂ = .fault f

/-- HEADLINE. Ignored bits and fields "never change an outcome or a report" (R69, with R131, R163 and R199): replacing one
of their bytes gives a pass with the same outcome. That a record the sink has not taken is counted as sent is the
model's (log 7), and so is that a record left pending before the pass is gone (log 17). -/
def Obligations.IgnoredBytesChangeNothing : Prop :=
  ∀ (s₁ s₂ : State) (bs : List Byte) (i : Nat) (v : Byte), Ref.ignored bs i v →
    FrameIn s₁ bs → FrameIn s₂ (bs.set i v) →
    ∃ t₁ t₂ records code, exec .framePass s₁ = .next t₁ ∧ exec .framePass s₂ = .next t₂
      ∧ t₁.reportOut ++ t₁.pending.toList = s₁.reportOut ++ records
      ∧ t₂.reportOut ++ t₂.pending.toList = s₂.reportOut ++ records
      ∧ t₁.status = code ∧ t₂.status = code
      ∧ (t₁.pending = none → t₁.diagOut = s₁.diagOut ++ [code])
      ∧ (t₂.pending = none → t₂.diagOut = s₂.diagOut ++ [code])

/-- Every record a pass sends is within the ranges of R21: a header length of 20 to 60 bytes in whole words, a payload
of at most 65495 bytes, a preview of the smaller of that and 64, one printable character a byte. That a record the sink has
not taken is counted as sent is the model's (log 7), and so is that a record left pending before the pass is gone (log
17). -/
def Obligations.DeliveredRecordsAreInRange : Prop :=
  ∀ (s t : State) (bs : List Byte) (r : PacketReport), FrameIn s bs → exec .framePass s = .next t →
    t.reportOut ++ t.pending.toList = s.reportOut ++ [r] →
    20 ≤ r.headerLen.toNat ∧ r.headerLen.toNat ≤ 60 ∧ r.headerLen.toNat % 4 = 0 ∧ r.payloadLen.toNat ≤ 65495
      ∧ r.previewLen.toNat = min r.payloadLen.toNat 64 ∧ r.wf = true
      ∧ ∀ b ∈ r.preview, 0x20 ≤ b.toNat ∧ b.toNat ≤ 0x7E

/-- Slices never extend (R53): on every frame, whatever becomes of it later, a stage that passes it (`STAGE` is the next
stage's) leaves in the registers a slice that lies in the one it was handed, behind a header of at least 14, 20 and 20
bytes: `(IP_OFF, IP_LEN)` in `(0, L)`, `(SEG_OFF, SEG_LEN)` in `(IP_OFF, IP_LEN)`, `(PAY_OFF, PAY_LEN)` at the end of
`(SEG_OFF, SEG_LEN)`. Each stage is handed what the stage before it leaves, and `PAY_LEN` is at most 65495 (R14). -/
def Obligations.SlicesNest : Prop :=
  ∀ (s t : State) (bs : List Byte), FrameIn s bs →
    (exec .ethParse s = .next t → t.stage = .ip →
      t.regs.ipOff = 14 ∧ t.regs.ipOff + t.regs.ipLen = bs.length ∧ FrameIn t bs)
    ∧ (s.regs.ipOff = 14 → s.regs.ipOff + s.regs.ipLen = bs.length →
      exec .ipv4Parse s = .next t → t.stage = .tcp →
        t.regs.ipOff = s.regs.ipOff ∧ t.regs.ipLen = s.regs.ipLen
        ∧ s.regs.ipOff + 20 ≤ t.regs.segOff ∧ t.regs.segOff + t.regs.segLen ≤ s.regs.ipOff + s.regs.ipLen
        ∧ t.regs.segLen ≤ 65515 ∧ FrameIn t bs)
    ∧ (s.regs.segOff + s.regs.segLen ≤ bs.length →
      exec .tcpParse s = .next t → t.stage = .render →
        t.regs.segOff = s.regs.segOff ∧ t.regs.segLen = s.regs.segLen
        ∧ s.regs.segOff + 20 ≤ t.regs.payOff ∧ t.regs.payOff + t.regs.payLen = s.regs.segOff + s.regs.segLen
        ∧ (s.regs.segLen ≤ 65515 → t.regs.payLen ≤ 65495) ∧ FrameIn t bs)

/-- A read that reaches beyond `L` or beyond the slice its stage is handed is a fault, not a value (R45, R53, U4): the
fifteen extractions of a field, each exactly where its bytes are not inside, and a preview that is longer than the payload
or the rest of the frame, at the first byte it could not read. An access beyond `PV[63]` (R40, R47), which takes a `PV_LEN`
that R19 excludes, is one too. The faults, and their names, are the model's (logs 3 and 4). -/
def Obligations.ReadsOutOfBoundsFault : Prop :=
  ∀ (s : State) (bs : List Byte), FrameIn s bs →
    (bs.length < 6 → exec .ethDst s = .fault (.outOfBounds 0 6))
    ∧ (bs.length < 12 → exec .ethSrc s = .fault (.outOfBounds 6 6))
    ∧ (bs.length < 14 → exec .ethType s = .fault (.outOfBounds 12 2))
    ∧ (OutOfSlice bs s.regs.ipOff s.regs.ipLen 14 1 → exec .ipVihl s = .fault (.outOfBounds 14 1))
    ∧ (OutOfSlice bs s.regs.ipOff s.regs.ipLen 16 2 → exec .ipTotlen s = .fault (.outOfBounds 16 2))
    ∧ (OutOfSlice bs s.regs.ipOff s.regs.ipLen 23 1 → exec .ipProto s = .fault (.outOfBounds 23 1))
    ∧ (OutOfSlice bs s.regs.ipOff s.regs.ipLen 26 4 → exec .ipSrc s = .fault (.outOfBounds 26 4))
    ∧ (OutOfSlice bs s.regs.ipOff s.regs.ipLen 30 4 → exec .ipDst s = .fault (.outOfBounds 30 4))
    ∧ (OutOfSlice bs s.regs.segOff s.regs.segLen s.regs.segOff 2 →
      exec .tcpSport s = .fault (.outOfBounds s.regs.segOff 2))
    ∧ (OutOfSlice bs s.regs.segOff s.regs.segLen (s.regs.segOff + 2) 2 →
      exec .tcpDport s = .fault (.outOfBounds (s.regs.segOff + 2) 2))
    ∧ (OutOfSlice bs s.regs.segOff s.regs.segLen (s.regs.segOff + 4) 4 →
      exec .tcpSeq s = .fault (.outOfBounds (s.regs.segOff + 4) 4))
    ∧ (OutOfSlice bs s.regs.segOff s.regs.segLen (s.regs.segOff + 8) 4 →
      exec .tcpAck s = .fault (.outOfBounds (s.regs.segOff + 8) 4))
    ∧ (OutOfSlice bs s.regs.segOff s.regs.segLen (s.regs.segOff + 12) 1 →
      exec .tcpDoff s = .fault (.outOfBounds (s.regs.segOff + 12) 1))
    ∧ (OutOfSlice bs s.regs.segOff s.regs.segLen (s.regs.segOff + 13) 1 →
      exec .tcpFlags s = .fault (.outOfBounds (s.regs.segOff + 13) 1))
    ∧ (OutOfSlice bs s.regs.segOff s.regs.segLen (s.regs.segOff + 14) 2 →
      exec .tcpWin s = .fault (.outOfBounds (s.regs.segOff + 14) 2))
    ∧ (∀ a, a = max s.regs.payOff (min bs.length (s.regs.payOff + s.regs.payLen)) →
      a < s.regs.payOff + s.regs.pvLen.toNat → a ≤ s.regs.payOff + 64 →
      exec .previewBuild s = .fault (.outOfBounds a 1))
    ∧ (64 < s.regs.pvLen.toNat → s.regs.payOff + 65 ≤ bs.length → 65 ≤ s.regs.payLen →
      exec .previewBuild s = .fault (.previewOutOfRange 64))
    ∧ (64 < s.regs.pvLen.toNat → exec .reportAssemble s = .fault (.previewOutOfRange 64))

/-- Where the spec states no result the operation completes and that one result is a free value (log 15): `IP_LEN` after
`ETH.REST` with `L` below 14 (R105), `SEG_LEN` after `IP.SLICE` with `IP_HLEN` above `IP_LEN`, which the declared length
still bounds (R129), `PAY_LEN` after `TCP.PAYLOAD` with `TCP_HLEN` above `SEG_LEN` (R162), and the two lengths of a record
whose registers are beyond R21's fields. No run comes there. -/
def Obligations.UnstatedResultsAreFree : Prop :=
  ∀ s : State,
    (s.len < 14 → ∃ n, exec .ethRest s = .next { s with regs := { s.regs with ipOff := 14, ipLen := n } })
    ∧ (s.regs.ipHlen ≤ s.regs.ipTotlen.toNat → s.regs.ipLen < s.regs.ipHlen →
      ∃ n, n ≤ s.regs.ipTotlen.toNat - s.regs.ipHlen
        ∧ exec .ipSlice s = .next { s with regs := { s.regs with segOff := 14 + s.regs.ipHlen, segLen := n } })
    ∧ (s.regs.segLen < s.regs.tcpHlen →
      ∃ n, exec .tcpPayload s = .next { s with
        stage := .render
        regs := { s.regs with payOff := s.regs.segOff + s.regs.tcpHlen, payLen := n } })
    ∧ (s.regs.pvLen.toNat ≤ 64 →
      ∃ (hl : BitVec 6) (pl : BitVec 16) (preview : List Byte),
        (s.regs.tcpHlen < 64 → hl.toNat = s.regs.tcpHlen) ∧ (s.regs.payLen < 65536 → pl.toNat = s.regs.payLen)
        ∧ preview.length = s.regs.pvLen.toNat ∧ (∀ i, i < s.regs.pvLen.toNat → preview[i]? = s.pv[i]?)
        ∧ exec .reportAssemble s = .next { s with regs := { s.regs with report :=
            { ipSrc := s.regs.ipSrc
              ipDst := s.regs.ipDst
              ipTotalLength := s.regs.ipTotlen
              srcPort := s.regs.tcpSport
              dstPort := s.regs.tcpDport
              seq := s.regs.tcpSeq
              ack := s.regs.tcpAck
              headerLen := hl
              window := s.regs.tcpWin
              flags := s.regs.flagset
              payloadLen := pl
              previewLen := s.regs.pvLen
              preview := preview } } })

/-! ## The whole machine -/

/-- The state after reset meets the invariant, with the loop running, nothing pending, nothing carried by a channel and the
request for a frame next (R26, R280; the registers the spec leaves unspecified are not named). -/
def Obligations.ResetMeetsInvariant : Prop :=
  Inv State.reset ∧ State.reset.loop = .running ∧ nextOp State.reset = some .nextFrame ∧ State.reset.pending = none
    ∧ State.reset.reportOut = [] ∧ State.reset.diagOut = [] ∧ State.reset.errorOut = []

/-- HEADLINE. Every step keeps the invariant, from every state that meets it: the buffer in canonical form, `PV_LEN` at
most 64, a whole frame in flight, only the codes of R251 on `DIAG_OUT`, a halted block idle, a record pending only while it
is handed over, and the slice registers of the stage that comes next inside the frame (R13, R19, R45, R53, R251). -/
def Obligations.StepKeepsInvariant : Prop :=
  ∀ s t : State, Inv s → step s = .next t → Inv t

/-- HEADLINE. "no frame can make the block fault, halt, read out of bounds" (R288, R256, R45): from every state that meets
the invariant, with whatever answers the source has still to give, the step gives a next state, and it leaves the loop
halted only if it was, or if the answer it takes is an error. -/
def Obligations.NoFrameStopsTheBlock : Prop :=
  ∀ s : State, Inv s → ∃ t, step s = .next t
    ∧ (t.loop = .halted → s.loop = .halted ∨ (s.op = none ∧ ∃ e rest, s.answers = .error e :: rest))

/-- HEADLINE. The steps of a pass, stage by stage, come to what `FRAME_PASS` does at once: R4 and R230 make a pass one
whole, and the steps inside it, with their number, are the model's (log 1), as are the sink's turns (log 7). From a frame
in flight at most six steps, and the turns the sink lets the record wait, lead to the very state the atomic pass gives. -/
def Obligations.StageStepsMakeAPass : Prop :=
  ∀ s : State, Inv s → s.op = some .ethParse → s.resetIn = [] →
    ∃ k, k ≤ 6 + ((s.sink.head?.map SinkTurn.wait).getD 0)
      ∧ Host.Core.run core k s = exec .framePass { s with op := none }

/-- HEADLINE. The machine's steps come to what `RUN` does (R231, R282; the fold is the spec's decision D2): `RUN` as one
operation is the model's (log 20), and so are the steps with their number (log 1) and the sink's turns (log 7). From an
idle state some number of steps, at most seven for each answer and the turns the sink lets its records wait, leads to the
very state the fold over the answers gives. -/
def Obligations.StepsMakeTheRun : Prop :=
  ∀ s : State, Inv s → s.op = none → s.resetIn = [] →
    ∃ k, k ≤ 7 * s.answers.length + (s.sink.map SinkTurn.wait).sum ∧ Host.Core.run core k s = exec .run s

/-- "only capture-source errors propagate out of the loop" (R231, R240): an operation that changes `LOOP` has halted it,
is one of the three that can take an error answer, and has put 0xC1 on `DIAG_OUT` last. -/
def Obligations.OnlyCaptureErrorsHalt : Prop :=
  ∀ (i : Instr) (s t : State), exec i s = .next t → t.loop ≠ s.loop →
    (i = .nextFrame ∨ i = .run ∨ i = .captureError) ∧ t.loop = .halted ∧ t.diagOut.getLast? = some 0xC1

/-- Nothing appears on `REPORT_OUT` but through the delivery of a pass's record (R201, R230, R233): every other operation
leaves what it has carried as it was. -/
def Obligations.ReportsComeFromPassesOnly : Prop :=
  ∀ (i : Instr) (s t : State), exec i s = .next t → i ≠ .emitReport → i ≠ .framePass → i ≠ .run →
    t.reportOut = s.reportOut

/-- What a channel has carried is never changed (R200, R255): every step but one that makes the whole of `RUN`, a reset
too, leaves the old records, codes and error values in place and adds at most one of each. That a channel is the list of
what it has carried is the model's (log 9), and so is that a reset leaves it in place (log 8). -/
def Obligations.ChannelsOnlyGrow : Prop :=
  ∀ s t : State, step s = .next t → s.op ≠ some .run →
    (∃ rs, t.reportOut = s.reportOut ++ rs ∧ rs.length ≤ 1)
    ∧ (∃ cs, t.diagOut = s.diagOut ++ cs ∧ cs.length ≤ 1)
    ∧ (∃ es, t.errorOut = s.errorOut ++ es ∧ es.length ≤ 1)

/-- "Nothing writes the frame space" (R47, R48): an operation that makes no request leaves every byte of the buffer and
`L` as they were, unless it ends the pass and with it the frame. -/
def Obligations.NothingWritesTheFrame : Prop :=
  ∀ (i : Instr) (s t : State), exec i s = .next t → i ≠ .nextFrame → i ≠ .run →
    (t.fb = s.fb ∧ t.len = s.len ∧ t.inFlight = s.inFlight) ∨ (t.fb = [] ∧ t.inFlight = false)

/-- The preview space is written by `PREVIEW.BUILD` only (R40, R47): every operation that does not contain it leaves every
byte of `PV` as it was, unless it ends the pass, after which `PV` holds no value (free values, log 4). -/
def Obligations.OnlyPreviewBuildWritesThePreview : Prop :=
  ∀ (i : Instr) (s t : State), exec i s = .next t →
    i ≠ .previewBuild → i ≠ .render → i ≠ .framePass → i ≠ .run →
    t.pv = s.pv ∨ (t.pv = Preview.unwritten s.epoch ∧ t.inFlight = false)

/-- The source's answers are used in order and once each (R232, R239): an operation leaves the rest of them, and only a
request uses any. -/
def Obligations.AnswersAreUsedInOrder : Prop :=
  ∀ (i : Instr) (s t : State), exec i s = .next t →
    t.answers <:+ s.answers ∧ (i ≠ .nextFrame → i ≠ .run → t.answers = s.answers)

/-- Every operation keeps the frame buffer in canonical form (20_memory.md section 1; the form is the model's, log 3), and
`PV_LEN` within the 64 bytes the preview buffer has (R19). -/
def Obligations.OperationsKeepMemoryForm : Prop :=
  ∀ (i : Instr) (s t : State), exec i s = .next t →
    (Memory.wf s.fb = true → Memory.wf t.fb = true) ∧ (s.regs.pvLen.toNat ≤ 64 → t.regs.pvLen.toNat ≤ 64)
end

