-- ==== Sys2Proof/Laws/Bytes.lean ====
section
/-! SUPPORT. Byte strings and their values: `beValue` and `beBytes` are inverse, and a taken value is the value put
there. -/

namespace Sys2Proof

theorem beValue_append_singleton (bs : List Byte) (b : Byte) :
    beValue (bs ++ [b]) = beValue bs * 256 + b.toNat := by
  simp [beValue, List.foldl_append]

@[simp] theorem beValue_nil : beValue [] = 0 := rfl

@[simp] theorem beBytes_length (n v : Nat) : (beBytes n v).length = n := by
  induction n generalizing v with
  | zero => rfl
  | succ n ih => simp [beBytes, ih]

theorem beValue_beBytes (n v : Nat) : beValue (beBytes n v) = v % 256 ^ n := by
  induction n generalizing v with
  | zero => simp [beBytes, Nat.mod_one]
  | succ n ih =>
    have h : v % (256 * 256 ^ n) = v % 256 + 256 * (v / 256 % 256 ^ n) := Nat.mod_mul
    rw [beBytes, beValue_append_singleton, ih, BitVec.toNat_ofNat, show 256 ^ (n + 1) = 256 * 256 ^ n from Nat.pow_succ', h]
    omega

theorem beValue_lt (bs : List Byte) : beValue bs < 256 ^ bs.length := by
  induction bs using List.reverseRecOn with
  | nil => simp
  | append_singleton bs b ih =>
    rw [beValue_append_singleton, List.length_append, List.length_singleton, Nat.pow_succ]
    have := b.isLt
    omega

theorem beBytes_beValue (bs : List Byte) : beBytes bs.length (beValue bs) = bs := by
  induction bs using List.reverseRecOn with
  | nil => rfl
  | append_singleton bs b ih =>
    have hb := b.isLt
    rw [List.length_append, List.length_singleton, beBytes, beValue_append_singleton]
    rw [show (beValue bs * 256 + b.toNat) / 256 = beValue bs by omega, ih]
    congr 2
    apply BitVec.eq_of_toNat_eq
    rw [BitVec.toNat_ofNat]
    omega

/-- Taking a value gives back what was put there. -/
theorem takeValue_beBytes (n v : Nat) (rest : List Byte) :
    takeValue n (beBytes n v ++ rest) = some (v % 256 ^ n, rest) := by
  have h : n = (beBytes n v).length := (beBytes_length n v).symm
  unfold takeValue
  rw [if_pos (by simp), List.take_append_of_le_length (by simp), List.drop_append_of_le_length (by simp)]
  simp [List.take_of_length_le, List.drop_of_length_le, beValue_beBytes]

theorem takeValue_beBytes_of_lt {n v : Nat} (h : v < 256 ^ n) (rest : List Byte) :
    takeValue n (beBytes n v ++ rest) = some (v, rest) := by
  rw [takeValue_beBytes, Nat.mod_eq_of_lt h]

/-- An unsigned integer fits its own count of bytes. -/
theorem lt_pow_byteCount (v : Nat) : v < 256 ^ byteCount v := by
  have h : v < 2 ^ (v.log2 + 1) := Nat.lt_log2_self
  have h2 : 2 ^ (v.log2 + 1) ≤ 2 ^ (8 * byteCount v) :=
    Nat.pow_le_pow_right (by omega) (by unfold byteCount; omega)
  calc v < 2 ^ (v.log2 + 1) := h
    _ ≤ 2 ^ (8 * byteCount v) := h2
    _ = 256 ^ byteCount v := by rw [Nat.pow_mul]

end Sys2Proof
end

