-- ==== Sys2Proof/Laws/State.lean ====
section
/-! SUPPORT. The small lemmas of State's updates: one per field per update, so that no later proof unfolds a record
update; and what the hand-over of a record comes to, sink by sink. -/

namespace Sys2Proof.Machine

@[simp] theorem State.putRegs_loop (s : State) (r : Regs) : (s.putRegs r).loop = s.loop := rfl
@[simp] theorem State.putRegs_stage (s : State) (r : Regs) : (s.putRegs r).stage = s.stage := rfl
@[simp] theorem State.putRegs_op (s : State) (r : Regs) : (s.putRegs r).op = s.op := rfl
@[simp] theorem State.putRegs_inFlight (s : State) (r : Regs) : (s.putRegs r).inFlight = s.inFlight := rfl
@[simp] theorem State.putRegs_fb (s : State) (r : Regs) : (s.putRegs r).fb = s.fb := rfl
@[simp] theorem State.putRegs_len (s : State) (r : Regs) : (s.putRegs r).len = s.len := rfl
@[simp] theorem State.putRegs_regs (s : State) (r : Regs) : (s.putRegs r).regs = r := rfl
@[simp] theorem State.putRegs_pv (s : State) (r : Regs) : (s.putRegs r).pv = s.pv := rfl
@[simp] theorem State.putRegs_status (s : State) (r : Regs) : (s.putRegs r).status = s.status := rfl
@[simp] theorem State.putRegs_pending (s : State) (r : Regs) : (s.putRegs r).pending = s.pending := rfl
@[simp] theorem State.putRegs_sink (s : State) (r : Regs) : (s.putRegs r).sink = s.sink := rfl
@[simp] theorem State.putRegs_reportOut (s : State) (r : Regs) : (s.putRegs r).reportOut = s.reportOut := rfl
@[simp] theorem State.putRegs_diagOut (s : State) (r : Regs) : (s.putRegs r).diagOut = s.diagOut := rfl
@[simp] theorem State.putRegs_errorOut (s : State) (r : Regs) : (s.putRegs r).errorOut = s.errorOut := rfl
@[simp] theorem State.putRegs_answers (s : State) (r : Regs) : (s.putRegs r).answers = s.answers := rfl
@[simp] theorem State.putRegs_sourceError (s : State) (r : Regs) : (s.putRegs r).sourceError = s.sourceError := rfl
@[simp] theorem State.putRegs_resetIn (s : State) (r : Regs) : (s.putRegs r).resetIn = s.resetIn := rfl
@[simp] theorem State.putRegs_epoch (s : State) (r : Regs) : (s.putRegs r).epoch = s.epoch := rfl
@[simp] theorem State.putRegs_charOut (s : State) (r : Regs) : (s.putRegs r).charOut = s.charOut := rfl
@[simp] theorem State.putRegs_textOut (s : State) (r : Regs) : (s.putRegs r).textOut = s.textOut := rfl

@[simp] theorem State.putStage_loop (s : State) (g : Stage) : (s.putStage g).loop = s.loop := rfl
@[simp] theorem State.putStage_stage (s : State) (g : Stage) : (s.putStage g).stage = g := rfl
@[simp] theorem State.putStage_op (s : State) (g : Stage) : (s.putStage g).op = s.op := rfl
@[simp] theorem State.putStage_inFlight (s : State) (g : Stage) : (s.putStage g).inFlight = s.inFlight := rfl
@[simp] theorem State.putStage_fb (s : State) (g : Stage) : (s.putStage g).fb = s.fb := rfl
@[simp] theorem State.putStage_len (s : State) (g : Stage) : (s.putStage g).len = s.len := rfl
@[simp] theorem State.putStage_regs (s : State) (g : Stage) : (s.putStage g).regs = s.regs := rfl
@[simp] theorem State.putStage_pv (s : State) (g : Stage) : (s.putStage g).pv = s.pv := rfl
@[simp] theorem State.putStage_status (s : State) (g : Stage) : (s.putStage g).status = s.status := rfl
@[simp] theorem State.putStage_pending (s : State) (g : Stage) : (s.putStage g).pending = s.pending := rfl
@[simp] theorem State.putStage_sink (s : State) (g : Stage) : (s.putStage g).sink = s.sink := rfl
@[simp] theorem State.putStage_reportOut (s : State) (g : Stage) : (s.putStage g).reportOut = s.reportOut := rfl
@[simp] theorem State.putStage_diagOut (s : State) (g : Stage) : (s.putStage g).diagOut = s.diagOut := rfl
@[simp] theorem State.putStage_errorOut (s : State) (g : Stage) : (s.putStage g).errorOut = s.errorOut := rfl
@[simp] theorem State.putStage_answers (s : State) (g : Stage) : (s.putStage g).answers = s.answers := rfl
@[simp] theorem State.putStage_sourceError (s : State) (g : Stage) : (s.putStage g).sourceError = s.sourceError := rfl
@[simp] theorem State.putStage_resetIn (s : State) (g : Stage) : (s.putStage g).resetIn = s.resetIn := rfl
@[simp] theorem State.putStage_epoch (s : State) (g : Stage) : (s.putStage g).epoch = s.epoch := rfl
@[simp] theorem State.putStage_charOut (s : State) (g : Stage) : (s.putStage g).charOut = s.charOut := rfl
@[simp] theorem State.putStage_textOut (s : State) (g : Stage) : (s.putStage g).textOut = s.textOut := rfl

@[simp] theorem State.putStatus_loop (s : State) (c : Byte) : (s.putStatus c).loop = s.loop := rfl
@[simp] theorem State.putStatus_stage (s : State) (c : Byte) : (s.putStatus c).stage = s.stage := rfl
@[simp] theorem State.putStatus_op (s : State) (c : Byte) : (s.putStatus c).op = s.op := rfl
@[simp] theorem State.putStatus_inFlight (s : State) (c : Byte) : (s.putStatus c).inFlight = s.inFlight := rfl
@[simp] theorem State.putStatus_fb (s : State) (c : Byte) : (s.putStatus c).fb = s.fb := rfl
@[simp] theorem State.putStatus_len (s : State) (c : Byte) : (s.putStatus c).len = s.len := rfl
@[simp] theorem State.putStatus_regs (s : State) (c : Byte) : (s.putStatus c).regs = s.regs := rfl
@[simp] theorem State.putStatus_pv (s : State) (c : Byte) : (s.putStatus c).pv = s.pv := rfl
@[simp] theorem State.putStatus_status (s : State) (c : Byte) : (s.putStatus c).status = c := rfl
@[simp] theorem State.putStatus_pending (s : State) (c : Byte) : (s.putStatus c).pending = s.pending := rfl
@[simp] theorem State.putStatus_sink (s : State) (c : Byte) : (s.putStatus c).sink = s.sink := rfl
@[simp] theorem State.putStatus_reportOut (s : State) (c : Byte) : (s.putStatus c).reportOut = s.reportOut := rfl
@[simp] theorem State.putStatus_diagOut (s : State) (c : Byte) : (s.putStatus c).diagOut = s.diagOut := rfl
@[simp] theorem State.putStatus_errorOut (s : State) (c : Byte) : (s.putStatus c).errorOut = s.errorOut := rfl
@[simp] theorem State.putStatus_answers (s : State) (c : Byte) : (s.putStatus c).answers = s.answers := rfl
@[simp] theorem State.putStatus_sourceError (s : State) (c : Byte) : (s.putStatus c).sourceError = s.sourceError := rfl
@[simp] theorem State.putStatus_resetIn (s : State) (c : Byte) : (s.putStatus c).resetIn = s.resetIn := rfl
@[simp] theorem State.putStatus_epoch (s : State) (c : Byte) : (s.putStatus c).epoch = s.epoch := rfl
@[simp] theorem State.putStatus_charOut (s : State) (c : Byte) : (s.putStatus c).charOut = s.charOut := rfl
@[simp] theorem State.putStatus_textOut (s : State) (c : Byte) : (s.putStatus c).textOut = s.textOut := rfl

@[simp] theorem State.putText_loop (s : State) (t : List Byte) : (s.putText t).loop = s.loop := rfl
@[simp] theorem State.putText_stage (s : State) (t : List Byte) : (s.putText t).stage = s.stage := rfl
@[simp] theorem State.putText_op (s : State) (t : List Byte) : (s.putText t).op = s.op := rfl
@[simp] theorem State.putText_inFlight (s : State) (t : List Byte) : (s.putText t).inFlight = s.inFlight := rfl
@[simp] theorem State.putText_fb (s : State) (t : List Byte) : (s.putText t).fb = s.fb := rfl
@[simp] theorem State.putText_len (s : State) (t : List Byte) : (s.putText t).len = s.len := rfl
@[simp] theorem State.putText_regs (s : State) (t : List Byte) : (s.putText t).regs = s.regs := rfl
@[simp] theorem State.putText_pv (s : State) (t : List Byte) : (s.putText t).pv = s.pv := rfl
@[simp] theorem State.putText_status (s : State) (t : List Byte) : (s.putText t).status = s.status := rfl
@[simp] theorem State.putText_pending (s : State) (t : List Byte) : (s.putText t).pending = s.pending := rfl
@[simp] theorem State.putText_sink (s : State) (t : List Byte) : (s.putText t).sink = s.sink := rfl
@[simp] theorem State.putText_reportOut (s : State) (t : List Byte) : (s.putText t).reportOut = s.reportOut := rfl
@[simp] theorem State.putText_diagOut (s : State) (t : List Byte) : (s.putText t).diagOut = s.diagOut := rfl
@[simp] theorem State.putText_errorOut (s : State) (t : List Byte) : (s.putText t).errorOut = s.errorOut := rfl
@[simp] theorem State.putText_answers (s : State) (t : List Byte) : (s.putText t).answers = s.answers := rfl
@[simp] theorem State.putText_sourceError (s : State) (t : List Byte) : (s.putText t).sourceError = s.sourceError := rfl
@[simp] theorem State.putText_resetIn (s : State) (t : List Byte) : (s.putText t).resetIn = s.resetIn := rfl
@[simp] theorem State.putText_epoch (s : State) (t : List Byte) : (s.putText t).epoch = s.epoch := rfl
@[simp] theorem State.putText_charOut (s : State) (t : List Byte) : (s.putText t).charOut = s.charOut := rfl
@[simp] theorem State.putText_textOut (s : State) (t : List Byte) : (s.putText t).textOut = t := rfl

@[simp] theorem State.loadFrame_loop (s : State) (bs : List Byte) : (s.loadFrame bs).loop = s.loop := rfl
@[simp] theorem State.loadFrame_stage (s : State) (bs : List Byte) : (s.loadFrame bs).stage = s.stage := rfl
@[simp] theorem State.loadFrame_op (s : State) (bs : List Byte) : (s.loadFrame bs).op = s.op := rfl
@[simp] theorem State.loadFrame_inFlight (s : State) (bs : List Byte) : (s.loadFrame bs).inFlight = true := rfl
@[simp] theorem State.loadFrame_fb (s : State) (bs : List Byte) : (s.loadFrame bs).fb = Memory.ofBytes bs := rfl
@[simp] theorem State.loadFrame_len (s : State) (bs : List Byte) : (s.loadFrame bs).len = bs.length := rfl
@[simp] theorem State.loadFrame_regs (s : State) (bs : List Byte) : (s.loadFrame bs).regs = s.regs := rfl
@[simp] theorem State.loadFrame_pv (s : State) (bs : List Byte) : (s.loadFrame bs).pv = s.pv := rfl
@[simp] theorem State.loadFrame_status (s : State) (bs : List Byte) :
    (s.loadFrame bs).status = Config.unwrittenBits 8 .status s.epoch := rfl
@[simp] theorem State.loadFrame_pending (s : State) (bs : List Byte) : (s.loadFrame bs).pending = s.pending := rfl
@[simp] theorem State.loadFrame_sink (s : State) (bs : List Byte) : (s.loadFrame bs).sink = s.sink := rfl
@[simp] theorem State.loadFrame_reportOut (s : State) (bs : List Byte) : (s.loadFrame bs).reportOut = s.reportOut := rfl
@[simp] theorem State.loadFrame_diagOut (s : State) (bs : List Byte) : (s.loadFrame bs).diagOut = s.diagOut := rfl
@[simp] theorem State.loadFrame_errorOut (s : State) (bs : List Byte) : (s.loadFrame bs).errorOut = s.errorOut := rfl
@[simp] theorem State.loadFrame_answers (s : State) (bs : List Byte) : (s.loadFrame bs).answers = s.answers := rfl
@[simp] theorem State.loadFrame_sourceError (s : State) (bs : List Byte) :
    (s.loadFrame bs).sourceError = s.sourceError := rfl
@[simp] theorem State.loadFrame_resetIn (s : State) (bs : List Byte) : (s.loadFrame bs).resetIn = s.resetIn := rfl
@[simp] theorem State.loadFrame_epoch (s : State) (bs : List Byte) : (s.loadFrame bs).epoch = s.epoch + 1 := rfl
@[simp] theorem State.loadFrame_charOut (s : State) (bs : List Byte) : (s.loadFrame bs).charOut = s.charOut := rfl
@[simp] theorem State.loadFrame_textOut (s : State) (bs : List Byte) : (s.loadFrame bs).textOut = s.textOut := rfl

@[simp] theorem State.deliver_loop (s : State) : (s.deliver).loop = s.loop := rfl
@[simp] theorem State.deliver_stage (s : State) : (s.deliver).stage = s.stage := rfl
@[simp] theorem State.deliver_op (s : State) : (s.deliver).op = s.op := rfl
@[simp] theorem State.deliver_inFlight (s : State) : (s.deliver).inFlight = s.inFlight := rfl
@[simp] theorem State.deliver_fb (s : State) : (s.deliver).fb = s.fb := rfl
@[simp] theorem State.deliver_len (s : State) : (s.deliver).len = s.len := rfl
@[simp] theorem State.deliver_regs (s : State) : (s.deliver).regs = s.regs := rfl
@[simp] theorem State.deliver_pv (s : State) : (s.deliver).pv = s.pv := rfl
@[simp] theorem State.deliver_status (s : State) : (s.deliver).status = s.status := rfl
@[simp] theorem State.deliver_pending (s : State) : (s.deliver).pending = none := rfl
@[simp] theorem State.deliver_sink (s : State) : (s.deliver).sink = s.sink := rfl
@[simp] theorem State.deliver_reportOut (s : State) : (s.deliver).reportOut = s.reportOut ++ [s.regs.report] := rfl
@[simp] theorem State.deliver_diagOut (s : State) : (s.deliver).diagOut = s.diagOut := rfl
@[simp] theorem State.deliver_errorOut (s : State) : (s.deliver).errorOut = s.errorOut := rfl
@[simp] theorem State.deliver_answers (s : State) : (s.deliver).answers = s.answers := rfl
@[simp] theorem State.deliver_sourceError (s : State) : (s.deliver).sourceError = s.sourceError := rfl
@[simp] theorem State.deliver_resetIn (s : State) : (s.deliver).resetIn = s.resetIn := rfl
@[simp] theorem State.deliver_epoch (s : State) : (s.deliver).epoch = s.epoch := rfl
@[simp] theorem State.deliver_charOut (s : State) : (s.deliver).charOut = s.charOut := rfl
@[simp] theorem State.deliver_textOut (s : State) : (s.deliver).textOut = s.textOut := rfl

@[simp] theorem State.offer_loop (s : State) : (s.offer).loop = s.loop := rfl
@[simp] theorem State.offer_stage (s : State) : (s.offer).stage = s.stage := rfl
@[simp] theorem State.offer_op (s : State) : (s.offer).op = s.op := rfl
@[simp] theorem State.offer_inFlight (s : State) : (s.offer).inFlight = s.inFlight := rfl
@[simp] theorem State.offer_fb (s : State) : (s.offer).fb = s.fb := rfl
@[simp] theorem State.offer_len (s : State) : (s.offer).len = s.len := rfl
@[simp] theorem State.offer_regs (s : State) : (s.offer).regs = s.regs := rfl
@[simp] theorem State.offer_pv (s : State) : (s.offer).pv = s.pv := rfl
@[simp] theorem State.offer_status (s : State) : (s.offer).status = s.status := rfl
@[simp] theorem State.offer_pending (s : State) : (s.offer).pending = some s.regs.report := rfl
@[simp] theorem State.offer_sink (s : State) : (s.offer).sink = s.sink := rfl
@[simp] theorem State.offer_reportOut (s : State) : (s.offer).reportOut = s.reportOut := rfl
@[simp] theorem State.offer_diagOut (s : State) : (s.offer).diagOut = s.diagOut := rfl
@[simp] theorem State.offer_errorOut (s : State) : (s.offer).errorOut = s.errorOut := rfl
@[simp] theorem State.offer_answers (s : State) : (s.offer).answers = s.answers := rfl
@[simp] theorem State.offer_sourceError (s : State) : (s.offer).sourceError = s.sourceError := rfl
@[simp] theorem State.offer_resetIn (s : State) : (s.offer).resetIn = s.resetIn := rfl
@[simp] theorem State.offer_epoch (s : State) : (s.offer).epoch = s.epoch := rfl
@[simp] theorem State.offer_charOut (s : State) : (s.offer).charOut = s.charOut := rfl
@[simp] theorem State.offer_textOut (s : State) : (s.offer).textOut = s.textOut := rfl

@[simp] theorem State.emitReport_loop (s : State) :
    (s.emitReport).loop = s.loop := by
  unfold State.emitReport; split <;> rfl
@[simp] theorem State.emitReport_stage (s : State) :
    (s.emitReport).stage = s.stage := by
  unfold State.emitReport; split <;> rfl
@[simp] theorem State.emitReport_op (s : State) :
    (s.emitReport).op = s.op := by
  unfold State.emitReport; split <;> rfl
@[simp] theorem State.emitReport_inFlight (s : State) :
    (s.emitReport).inFlight = s.inFlight := by
  unfold State.emitReport; split <;> rfl
@[simp] theorem State.emitReport_fb (s : State) :
    (s.emitReport).fb = s.fb := by
  unfold State.emitReport; split <;> rfl
@[simp] theorem State.emitReport_len (s : State) :
    (s.emitReport).len = s.len := by
  unfold State.emitReport; split <;> rfl
@[simp] theorem State.emitReport_regs (s : State) :
    (s.emitReport).regs = s.regs := by
  unfold State.emitReport; split <;> rfl
@[simp] theorem State.emitReport_pv (s : State) :
    (s.emitReport).pv = s.pv := by
  unfold State.emitReport; split <;> rfl
@[simp] theorem State.emitReport_status (s : State) :
    (s.emitReport).status = s.status := by
  unfold State.emitReport; split <;> rfl
@[simp] theorem State.emitReport_diagOut (s : State) :
    (s.emitReport).diagOut = s.diagOut := by
  unfold State.emitReport; split <;> rfl
@[simp] theorem State.emitReport_errorOut (s : State) :
    (s.emitReport).errorOut = s.errorOut := by
  unfold State.emitReport; split <;> rfl
@[simp] theorem State.emitReport_answers (s : State) :
    (s.emitReport).answers = s.answers := by
  unfold State.emitReport; split <;> rfl
@[simp] theorem State.emitReport_sourceError (s : State) :
    (s.emitReport).sourceError = s.sourceError := by
  unfold State.emitReport; split <;> rfl
@[simp] theorem State.emitReport_resetIn (s : State) :
    (s.emitReport).resetIn = s.resetIn := by
  unfold State.emitReport; split <;> rfl
@[simp] theorem State.emitReport_epoch (s : State) :
    (s.emitReport).epoch = s.epoch := by
  unfold State.emitReport; split <;> rfl
@[simp] theorem State.emitReport_charOut (s : State) :
    (s.emitReport).charOut = s.charOut := by
  unfold State.emitReport; split <;> rfl
@[simp] theorem State.emitReport_textOut (s : State) :
    (s.emitReport).textOut = s.textOut := by
  unfold State.emitReport; split <;> rfl

@[simp] theorem State.handOver_loop (s : State) :
    (s.handOver).loop = s.loop := by
  unfold State.handOver; split <;> rfl
@[simp] theorem State.handOver_stage (s : State) :
    (s.handOver).stage = s.stage := by
  unfold State.handOver; split <;> rfl
@[simp] theorem State.handOver_inFlight (s : State) :
    (s.handOver).inFlight = s.inFlight := by
  unfold State.handOver; split <;> rfl
@[simp] theorem State.handOver_fb (s : State) : (s.handOver).fb = s.fb := by
  unfold State.handOver; split <;> rfl
@[simp] theorem State.handOver_len (s : State) : (s.handOver).len = s.len := by
  unfold State.handOver; split <;> rfl
@[simp] theorem State.handOver_regs (s : State) :
    (s.handOver).regs = s.regs := by
  unfold State.handOver; split <;> rfl
@[simp] theorem State.handOver_pv (s : State) : (s.handOver).pv = s.pv := by
  unfold State.handOver; split <;> rfl
@[simp] theorem State.handOver_status (s : State) :
    (s.handOver).status = s.status := by
  unfold State.handOver; split <;> rfl
@[simp] theorem State.handOver_diagOut (s : State) :
    (s.handOver).diagOut = s.diagOut := by
  unfold State.handOver; split <;> rfl
@[simp] theorem State.handOver_errorOut (s : State) :
    (s.handOver).errorOut = s.errorOut := by
  unfold State.handOver; split <;> rfl
@[simp] theorem State.handOver_answers (s : State) :
    (s.handOver).answers = s.answers := by
  unfold State.handOver; split <;> rfl
@[simp] theorem State.handOver_sourceError (s : State) :
    (s.handOver).sourceError = s.sourceError := by
  unfold State.handOver; split <;> rfl
@[simp] theorem State.handOver_resetIn (s : State) :
    (s.handOver).resetIn = s.resetIn := by
  unfold State.handOver; split <;> rfl
@[simp] theorem State.handOver_epoch (s : State) :
    (s.handOver).epoch = s.epoch := by
  unfold State.handOver; split <;> rfl
@[simp] theorem State.handOver_charOut (s : State) :
    (s.handOver).charOut = s.charOut := by
  unfold State.handOver; split <;> rfl
@[simp] theorem State.handOver_textOut (s : State) :
    (s.handOver).textOut = s.textOut := by
  unfold State.handOver; split <;> rfl

@[simp] theorem State.emitDiag_loop (s : State) : (s.emitDiag).loop = s.loop := rfl
@[simp] theorem State.emitDiag_stage (s : State) : (s.emitDiag).stage = s.stage := rfl
@[simp] theorem State.emitDiag_op (s : State) : (s.emitDiag).op = s.op := rfl
@[simp] theorem State.emitDiag_inFlight (s : State) : (s.emitDiag).inFlight = s.inFlight := rfl
@[simp] theorem State.emitDiag_fb (s : State) : (s.emitDiag).fb = s.fb := rfl
@[simp] theorem State.emitDiag_len (s : State) : (s.emitDiag).len = s.len := rfl
@[simp] theorem State.emitDiag_regs (s : State) : (s.emitDiag).regs = s.regs := rfl
@[simp] theorem State.emitDiag_pv (s : State) : (s.emitDiag).pv = s.pv := rfl
@[simp] theorem State.emitDiag_status (s : State) : (s.emitDiag).status = s.status := rfl
@[simp] theorem State.emitDiag_pending (s : State) : (s.emitDiag).pending = s.pending := rfl
@[simp] theorem State.emitDiag_sink (s : State) : (s.emitDiag).sink = s.sink := rfl
@[simp] theorem State.emitDiag_reportOut (s : State) : (s.emitDiag).reportOut = s.reportOut := rfl
@[simp] theorem State.emitDiag_diagOut (s : State) : (s.emitDiag).diagOut = s.diagOut ++ [s.status] := rfl
@[simp] theorem State.emitDiag_errorOut (s : State) : (s.emitDiag).errorOut = s.errorOut := rfl
@[simp] theorem State.emitDiag_answers (s : State) : (s.emitDiag).answers = s.answers := rfl
@[simp] theorem State.emitDiag_sourceError (s : State) : (s.emitDiag).sourceError = s.sourceError := rfl
@[simp] theorem State.emitDiag_resetIn (s : State) : (s.emitDiag).resetIn = s.resetIn := rfl
@[simp] theorem State.emitDiag_epoch (s : State) : (s.emitDiag).epoch = s.epoch := rfl
@[simp] theorem State.emitDiag_charOut (s : State) : (s.emitDiag).charOut = s.charOut := rfl
@[simp] theorem State.emitDiag_textOut (s : State) : (s.emitDiag).textOut = s.textOut := rfl

@[simp] theorem State.endPass_loop (s : State) : (s.endPass).loop = s.loop := rfl
@[simp] theorem State.endPass_stage (s : State) : (s.endPass).stage = .idle := rfl
@[simp] theorem State.endPass_op (s : State) : (s.endPass).op = s.op := rfl
@[simp] theorem State.endPass_inFlight (s : State) : (s.endPass).inFlight = false := rfl
@[simp] theorem State.endPass_fb (s : State) : (s.endPass).fb = [] := rfl
@[simp] theorem State.endPass_len (s : State) : (s.endPass).len = Config.unwrittenNat .len s.epoch := rfl
@[simp] theorem State.endPass_regs (s : State) : (s.endPass).regs = Regs.unwritten s.epoch := rfl
@[simp] theorem State.endPass_pv (s : State) : (s.endPass).pv = Preview.unwritten s.epoch := rfl
@[simp] theorem State.endPass_status (s : State) : (s.endPass).status = s.status := rfl
@[simp] theorem State.endPass_pending (s : State) : (s.endPass).pending = none := rfl
@[simp] theorem State.endPass_sink (s : State) : (s.endPass).sink = s.sink := rfl
@[simp] theorem State.endPass_reportOut (s : State) : (s.endPass).reportOut = s.reportOut := rfl
@[simp] theorem State.endPass_diagOut (s : State) : (s.endPass).diagOut = s.diagOut := rfl
@[simp] theorem State.endPass_errorOut (s : State) : (s.endPass).errorOut = s.errorOut := rfl
@[simp] theorem State.endPass_answers (s : State) : (s.endPass).answers = s.answers := rfl
@[simp] theorem State.endPass_sourceError (s : State) : (s.endPass).sourceError = s.sourceError := rfl
@[simp] theorem State.endPass_resetIn (s : State) : (s.endPass).resetIn = s.resetIn := rfl
@[simp] theorem State.endPass_epoch (s : State) : (s.endPass).epoch = s.epoch + 1 := rfl
@[simp] theorem State.endPass_charOut (s : State) : (s.endPass).charOut = s.charOut := rfl
@[simp] theorem State.endPass_textOut (s : State) : (s.endPass).textOut = s.textOut := rfl

@[simp] theorem takeRaise_loop (c : Cause) (s : State) : (takeRaise c s).loop = s.loop := rfl
@[simp] theorem takeRaise_stage (c : Cause) (s : State) : (takeRaise c s).stage = .idle := rfl
@[simp] theorem takeRaise_op (c : Cause) (s : State) : (takeRaise c s).op = s.op := rfl
@[simp] theorem takeRaise_inFlight (c : Cause) (s : State) : (takeRaise c s).inFlight = false := rfl
@[simp] theorem takeRaise_fb (c : Cause) (s : State) : (takeRaise c s).fb = [] := rfl
@[simp] theorem takeRaise_len (c : Cause) (s : State) : (takeRaise c s).len = Config.unwrittenNat .len s.epoch := rfl
@[simp] theorem takeRaise_regs (c : Cause) (s : State) : (takeRaise c s).regs = Regs.unwritten s.epoch := rfl
@[simp] theorem takeRaise_pv (c : Cause) (s : State) : (takeRaise c s).pv = Preview.unwritten s.epoch := rfl
@[simp] theorem takeRaise_status (c : Cause) (s : State) : (takeRaise c s).status = c.code := rfl
@[simp] theorem takeRaise_pending (c : Cause) (s : State) : (takeRaise c s).pending = none := rfl
@[simp] theorem takeRaise_sink (c : Cause) (s : State) : (takeRaise c s).sink = s.sink := rfl
@[simp] theorem takeRaise_reportOut (c : Cause) (s : State) : (takeRaise c s).reportOut = s.reportOut := rfl
@[simp] theorem takeRaise_diagOut (c : Cause) (s : State) : (takeRaise c s).diagOut = s.diagOut ++ [c.code] := rfl
@[simp] theorem takeRaise_errorOut (c : Cause) (s : State) : (takeRaise c s).errorOut = s.errorOut := rfl
@[simp] theorem takeRaise_answers (c : Cause) (s : State) : (takeRaise c s).answers = s.answers := rfl
@[simp] theorem takeRaise_sourceError (c : Cause) (s : State) : (takeRaise c s).sourceError = s.sourceError := rfl
@[simp] theorem takeRaise_resetIn (c : Cause) (s : State) : (takeRaise c s).resetIn = s.resetIn := rfl
@[simp] theorem takeRaise_epoch (c : Cause) (s : State) : (takeRaise c s).epoch = s.epoch + 1 := rfl
@[simp] theorem takeRaise_charOut (c : Cause) (s : State) : (takeRaise c s).charOut = s.charOut := rfl
@[simp] theorem takeRaise_textOut (c : Cause) (s : State) : (takeRaise c s).textOut = s.textOut := rfl

@[simp] theorem takeCaptureError_loop (s : State) : (takeCaptureError s).loop = .halted := rfl
@[simp] theorem takeCaptureError_stage (s : State) : (takeCaptureError s).stage = .idle := rfl
@[simp] theorem takeCaptureError_op (s : State) : (takeCaptureError s).op = s.op := rfl
@[simp] theorem takeCaptureError_inFlight (s : State) : (takeCaptureError s).inFlight = s.inFlight := rfl
@[simp] theorem takeCaptureError_fb (s : State) : (takeCaptureError s).fb = s.fb := rfl
@[simp] theorem takeCaptureError_len (s : State) : (takeCaptureError s).len = s.len := rfl
@[simp] theorem takeCaptureError_regs (s : State) : (takeCaptureError s).regs = s.regs := rfl
@[simp] theorem takeCaptureError_pv (s : State) : (takeCaptureError s).pv = s.pv := rfl
@[simp] theorem takeCaptureError_status (s : State) : (takeCaptureError s).status = Cause.captureError.code := rfl
@[simp] theorem takeCaptureError_pending (s : State) : (takeCaptureError s).pending = s.pending := rfl
@[simp] theorem takeCaptureError_sink (s : State) : (takeCaptureError s).sink = s.sink := rfl
@[simp] theorem takeCaptureError_reportOut (s : State) : (takeCaptureError s).reportOut = s.reportOut := rfl
@[simp] theorem takeCaptureError_diagOut (s : State) :
    (takeCaptureError s).diagOut = s.diagOut ++ [Cause.captureError.code] := rfl
@[simp] theorem takeCaptureError_errorOut (s : State) :
    (takeCaptureError s).errorOut = s.errorOut ++ s.sourceError.toList := rfl
@[simp] theorem takeCaptureError_answers (s : State) : (takeCaptureError s).answers = s.answers := rfl
@[simp] theorem takeCaptureError_sourceError (s : State) : (takeCaptureError s).sourceError = s.sourceError := rfl
@[simp] theorem takeCaptureError_resetIn (s : State) : (takeCaptureError s).resetIn = s.resetIn := rfl
@[simp] theorem takeCaptureError_epoch (s : State) : (takeCaptureError s).epoch = s.epoch := rfl
@[simp] theorem takeCaptureError_charOut (s : State) : (takeCaptureError s).charOut = s.charOut := rfl
@[simp] theorem takeCaptureError_textOut (s : State) : (takeCaptureError s).textOut = s.textOut := rfl

/-! ## Handing a record over -/

/-- One turn of `EMIT_REPORT`, sink by sink (R233, R286). -/
theorem State.emitReport_of_ready {s : State} (h : s.sink = []) : s.emitReport = s.deliver := by
  simp [State.emitReport, h]

theorem State.emitReport_of_takes {s : State} {rest : List SinkTurn} (h : s.sink = .takesAfter 0 :: rest) :
    s.emitReport = { s.deliver with sink := rest } := by
  simp [State.emitReport, h]

theorem State.emitReport_of_waits {s : State} {n : Nat} {rest : List SinkTurn}
    (h : s.sink = .takesAfter (n + 1) :: rest) : s.emitReport = { s.offer with sink := .takesAfter n :: rest } := by
  simp [State.emitReport, h]

theorem State.emitReport_of_never {s : State} {rest : List SinkTurn} (h : s.sink = .never :: rest) :
    s.emitReport = s.offer := by
  simp [State.emitReport, h]

/-- The whole hand-over to a sink that takes the record. -/
theorem State.handOver_of_takes {s : State} (h : s.sink.head? ≠ some .never) :
    s.handOver = { s.deliver with sink := s.sink.tail } := by
  unfold State.handOver
  split
  · next hs => simp [State.deliver, hs]
  · next hs => simp [hs]
  · next hs => simp [hs] at h

/-- The whole hand-over to a sink that never takes it. -/
theorem State.handOver_of_never {s : State} (h : s.sink.head? = some .never) :
    s.handOver = { s.offer with op := some .emitReport } := by
  unfold State.handOver
  split
  · next hs => simp [hs] at h
  · next hs => simp [hs] at h
  · rfl

/-- The end of a pass whose record was taken (R230). -/
theorem finishPass_of_takes {s : State} (h : s.sink.head? ≠ some .never) :
    finishPass s = { s.deliver with sink := s.sink.tail }.emitDiag.endPass := by
  simp [finishPass, afterReport, State.handOver_of_takes h]

/-- A pass whose record the sink never takes does not end (R286). -/
theorem finishPass_of_never {s : State} (h : s.sink.head? = some .never) :
    finishPass s = { s.offer with op := some .emitReport } := by
  simp [finishPass, afterReport, State.handOver_of_never h]

end Sys2Proof.Machine
end

