-- ==== Sys2Proof/Laws/Ops.lean ====
section
/-! SUPPORT. One lemma for each shared operation, saying all it can do: the memory's laws and canonical form, a read of a
frame in flight, a field extraction, a test that raises, a sequence of operations. -/

namespace Sys2Proof.Machine

/-! ## Memory -/

theorem Memory.read_write_same (m : Memory) (a : Nat) (v : Byte) :
    Memory.read (Memory.write m a v) a = some v := by
  induction m with
  | nil => simp [Memory.write, Memory.read]
  | cons c rest ih =>
    obtain ⟨b, x⟩ := c
    by_cases h1 : a < b
    · simp [Memory.write, Memory.read, h1]
    · by_cases h2 : a = b
      · simp [Memory.write, Memory.read, h2]
      · simp [Memory.write, Memory.read, h1, h2, ih, Ne.symm h2]

theorem Memory.read_write_other (m : Memory) {a b : Nat} (v : Byte) (h : b ≠ a) :
    Memory.read (Memory.write m a v) b = Memory.read m b := by
  induction m with
  | nil => simp [Memory.write, Memory.read, Ne.symm h]
  | cons c rest ih =>
    obtain ⟨d, x⟩ := c
    by_cases h1 : a < d
    · simp [Memory.write, Memory.read, h1, Ne.symm h]
    · by_cases h2 : a = d
      · subst h2; simp [Memory.write, Memory.read, Ne.symm h]
      · simp [Memory.write, Memory.read, h1, h2, ih]

/-- The canonical form as a statement about neighbours. -/
theorem Memory.wf_cons (a : Nat) (x : Byte) (m : Memory) :
    Memory.wf ((a, x) :: m) = true ↔ (∀ c ∈ m.head?, a < c.1) ∧ Memory.wf m = true := by
  cases m with
  | nil => simp [Memory.wf]
  | cons c rest => obtain ⟨b, y⟩ := c; simp [Memory.wf]

/-- A write keeps the canonical form. -/
theorem Memory.wf_write (m : Memory) (a : Nat) (v : Byte) (h : Memory.wf m = true) :
    Memory.wf (Memory.write m a v) = true := by
  induction m with
  | nil => rfl
  | cons c rest ih =>
    obtain ⟨b, x⟩ := c
    have hw := (Memory.wf_cons b x rest).1 h
    by_cases h1 : a < b
    · simp only [Memory.write, h1, if_true, Memory.wf_cons]
      exact ⟨by simpa using h1, hw⟩
    · by_cases h2 : a = b
      · subst h2; simpa [Memory.write, Memory.wf_cons] using hw
      · have hlt : b < a := by omega
        simp only [Memory.write, h1, h2, if_false, Memory.wf_cons]
        refine ⟨?_, ih hw.2⟩
        intro c hc
        cases rest with
        | nil => simp [Memory.write] at hc; subst hc; exact hlt
        | cons d rest =>
          obtain ⟨e, y⟩ := d
          have he : b < e := hw.1 (e, y) (by simp)
          simp only [Memory.write] at hc
          split at hc
          · simp at hc; subst hc; exact hlt
          · split at hc
            · simp at hc; subst hc; exact hlt
            · simp at hc; subst hc; exact he

/-- What the capture source writes is in canonical form. -/
theorem Memory.wf_ofBytesFrom (a : Nat) (bs : List Byte) : Memory.wf (Memory.ofBytesFrom a bs) = true := by
  induction bs generalizing a with
  | nil => rfl
  | cons b bs ih =>
    rw [Memory.ofBytesFrom, Memory.wf_cons]
    refine ⟨?_, ih (a + 1)⟩
    cases bs with
    | nil => simp [Memory.ofBytesFrom]
    | cons c cs => simp [Memory.ofBytesFrom]

theorem Memory.wf_ofBytes (bs : List Byte) : Memory.wf (Memory.ofBytes bs) = true := Memory.wf_ofBytesFrom 0 bs

/-- Reset's memory is in canonical form. -/
theorem State.reset_memory_wf : Memory.wf State.reset.fb = true := rfl

theorem Memory.read_ofBytesFrom (a i : Nat) (bs : List Byte) :
    Memory.read (Memory.ofBytesFrom a bs) (a + i) = bs[i]? := by
  induction bs generalizing a i with
  | nil => simp [Memory.ofBytesFrom, Memory.read]
  | cons b bs ih =>
    cases i with
    | zero => simp [Memory.ofBytesFrom, Memory.read]
    | succ i =>
      have := ih (a + 1) i
      rw [Nat.add_assoc, Nat.add_comm 1 i] at this
      simp [Memory.ofBytesFrom, Memory.read, this]

/-- A byte of a frame in the buffer. -/
theorem Memory.read_ofBytes (i : Nat) (bs : List Byte) : Memory.read (Memory.ofBytes bs) i = bs[i]? := by
  simpa [Memory.ofBytes] using Memory.read_ofBytesFrom 0 i bs

/-- The bytes of a frame in the buffer. -/
theorem Memory.readBytes_ofBytes (bs : List Byte) (a n : Nat) (h : a + n ≤ bs.length) :
    Memory.readBytes (Memory.ofBytes bs) a n = some ((bs.drop a).take n) := by
  induction n generalizing a with
  | zero => simp [Memory.readBytes]
  | succ n ih =>
    have ha : a < bs.length := by omega
    rw [Memory.readBytes, Memory.read_ofBytes, ih (a + 1) (by omega), List.getElem?_eq_getElem ha,
      List.drop_eq_getElem_cons ha, List.take_succ_cons]

/-! ## Reads of a frame -/

/-- `MemRead` in bounds gives the field's value (20_memory.md R41). -/
theorem memRead_in {s : State} {bs : List Byte} (hf : FrameIn s bs) {a : Nat} {w : Width}
    (h : a + w.bytes ≤ bs.length) : memRead s a w = some (Ref.field bs a w.bytes) := by
  unfold memRead
  rw [hf.1, hf.2, if_pos h, Memory.readBytes_ofBytes bs a w.bytes h]
  rfl

/-- `MemRead` out of bounds gives nothing (20_memory.md R45). -/
theorem memRead_out {s : State} {bs : List Byte} (hf : FrameIn s bs) {a : Nat} {w : Width}
    (h : bs.length < a + w.bytes) : memRead s a w = none := by
  unfold memRead
  rw [hf.2, if_neg (by omega)]

/-- A read inside the slice gives the field's value (20_memory.md R53). -/
theorem memReadIn_in {s : State} {bs : List Byte} (hf : FrameIn s bs) {off len a : Nat} {w : Width}
    (h : InSlice bs off len a w.bytes) : memReadIn s off len a w = some (Ref.field bs a w.bytes) := by
  obtain ⟨h1, h2, h3⟩ := h
  rw [memReadIn, if_pos ⟨h1, h2⟩, memRead_in hf h3]

/-- A read beyond the slice or beyond the frame gives nothing (93_implementation_defined.md U4). -/
theorem memReadIn_out {s : State} {bs : List Byte} (hf : FrameIn s bs) {off len a : Nat} {w : Width}
    (h : OutOfSlice bs off len a w.bytes) : memReadIn s off len a w = none := by
  unfold memReadIn
  split
  · next hin =>
    obtain h | h | h := h
    · exact memRead_out hf h
    · omega
    · omega
  · rfl

/-- A read is inside the slice or out of it. -/
theorem inSlice_or_out (bs : List Byte) (off len a n : Nat) : InSlice bs off len a n ∨ OutOfSlice bs off len a n := by
  unfold InSlice OutOfSlice
  omega

/-- A field extraction inside its slice. -/
theorem readInto_in {s : State} {bs : List Byte} (hf : FrameIn s bs) {off len a : Nat} {w : Width}
    (h : InSlice bs off len a w.bytes) (put : Regs → Nat → Regs) :
    readInto off len a w put s = .ok (s.putRegs (put s.regs (Ref.field bs a w.bytes))) := by
  simp [readInto, memReadIn_in hf h]

/-- A field extraction beyond its slice or beyond the frame. -/
theorem readInto_out {s : State} {bs : List Byte} (hf : FrameIn s bs) {off len a : Nat} {w : Width}
    (h : OutOfSlice bs off len a w.bytes) (put : Regs → Nat → Regs) :
    readInto off len a w put s = .fault (.outOfBounds a w.bytes) := by
  simp [readInto, memReadIn_out hf h]

/-- All a field extraction can do. -/
theorem readInto_cases (off len a : Nat) (w : Width) (put : Regs → Nat → Regs) (s : State) :
    (∃ v, readInto off len a w put s = .ok (s.putRegs (put s.regs v)))
      ∨ readInto off len a w put s = .fault (.outOfBounds a w.bytes) := by
  unfold readInto
  cases memReadIn s off len a w with
  | none => exact .inr rfl
  | some v => exact .inl ⟨v, rfl⟩

theorem FrameIn.putRegs {s : State} {bs : List Byte} (h : FrameIn s bs) (r : Regs) : FrameIn (s.putRegs r) bs := h

theorem FrameIn.putStage {s : State} {bs : List Byte} (h : FrameIn s bs) (g : Stage) : FrameIn (s.putStage g) bs := h

theorem FrameIn.loadFrame (s : State) (bs : List Byte) : FrameIn (s.loadFrame bs) bs := ⟨rfl, rfl⟩

/-! ## Results -/

@[simp] theorem raiseIf_true (c : Cause) (s : State) : raiseIf true c s = .raised c s := rfl
@[simp] theorem raiseIf_false (c : Cause) (s : State) : raiseIf false c s = .ok s := rfl
@[simp] theorem Flow.ok_andThen (s : State) (k : State → Flow) : (Flow.ok s).andThen k = k s := rfl
@[simp] theorem Flow.raised_andThen (c : Cause) (s : State) (k : State → Flow) : (Flow.raised c s).andThen k = .raised c s := rfl
@[simp] theorem Flow.fault_andThen (f : Fault) (k : State → Flow) : (Flow.fault f).andThen k = .fault f := rfl
@[simp] theorem settle_ok (s : State) : settle (.ok s) = .next s := rfl
@[simp] theorem settle_raised (c : Cause) (s : State) : settle (.raised c s) = .next (takeRaise c s) := rfl
@[simp] theorem settle_fault (f : Fault) : settle (.fault f) = .fault f := rfl
@[simp] theorem runOps_nil (s : State) : runOps [] s = .ok s := rfl
@[simp] theorem runOps_cons (f : State → Flow) (fs : List (State → Flow)) (s : State) :
    runOps (f :: fs) s = (f s).andThen (runOps fs) := rfl

/-- A sequence in two parts. -/
theorem runOps_append (fs gs : List (State → Flow)) (s : State) :
    runOps (fs ++ gs) s = (runOps fs s).andThen (runOps gs) := by
  induction fs generalizing s with
  | nil => rfl
  | cons f fs ih =>
    simp only [List.cons_append, runOps_cons]
    cases f s with
    | ok t => simpa using ih t
    | raised c t => rfl
    | fault g => rfl

/-- Nothing is ever refused by settling. -/
theorem settle_cases (r : Flow) :
    (∃ s, r = .ok s ∧ settle r = .next s) ∨ (∃ c s, r = .raised c s ∧ settle r = .next (takeRaise c s))
      ∨ (∃ f, r = .fault f ∧ settle r = .fault f) := by
  cases r with
  | ok s => exact .inl ⟨s, rfl, rfl⟩
  | raised c s => exact .inr (.inl ⟨c, s, rfl, rfl⟩)
  | fault f => exact .inr (.inr ⟨f, rfl, rfl⟩)

/-- Taking a raise drops the frame (60_exceptions.md R253). -/
theorem takeRaise_dropped (c : Cause) (s : State) : Dropped s (takeRaise c s) c.code := by
  exact ⟨⟨rfl, rfl, rfl, rfl, rfl, rfl, rfl, rfl, rfl, rfl, rfl, rfl⟩, rfl, rfl, rfl, rfl⟩

/-! ## The preview space -/

/-- `MemWrite` inside `PV` goes on (20_memory.md R47). -/
theorem memWrite_in (s : State) {a : Nat} (h : a < 64) (v : Byte) :
    memWrite s a v = .ok { s with pv := s.pv.set a v h } := by
  simp [memWrite, h]

/-- All a `MemWrite` can do: store one byte of `PV`, or fault outside it. -/
theorem memWrite_cases (s : State) (a : Nat) (v : Byte) :
    (∃ h : a < 64, memWrite s a v = .ok { s with pv := s.pv.set a v h })
      ∨ (64 ≤ a ∧ memWrite s a v = .fault (.previewOutOfRange a)) := by
  by_cases h : a < 64
  · exact .inl ⟨h, memWrite_in s h v⟩
  · exact .inr ⟨by omega, by simp [memWrite, h]⟩

/-- The preview as a list (43_report_renderer.md R191). -/
theorem readPreview_in (pv : Preview) {n : Nat} (h : n ≤ 64) : readPreview pv n = some (pv.toList.take n) := by
  simp [readPreview, Config.previewMax, h]

/-- The free value of `PV_LEN` is a count from 0 to 64 (10_state.md R19). -/
theorem Regs.unwritten_pvLen_le (epoch : Nat) : (Regs.unwritten epoch).pvLen.toNat ≤ 64 := by
  have := Nat.mod_lt (Config.unwrittenBits 7 .pvLen epoch).toNat (by decide : 0 < 65)
  simp only [Regs.unwritten, BitVec.toNat_ofNat]
  omega

/-! ## Guarded results -/

/-- Where the guard holds the difference is exact. -/
theorem guardedSub_of_le (name : Config.RegName) {a b : Nat} (h : b ≤ a) : guardedSub name a b = a - b := by
  simp [guardedSub, h]

/-- A number that fits its record field is copied. -/
theorem narrow_of_lt {w : Nat} (name : Config.RegName) {v : Nat} (h : v < 2 ^ w) :
    narrow w name v = BitVec.ofNat w v := by
  simp [narrow, h]

end Sys2Proof.Machine
end

