-- ==== Sys2Proof/Laws/PerInstr.lean ====
section
/-! SUPPORT. Statements about every operation as syntax, one lemma per constructor: an operation's word starts with one
of the five selector bytes and has at least one byte after it. -/

namespace Sys2Proof.Laws.Encoding

/-- The word of an operation is a selector byte (0 to 4) and at least one code byte. -/
def Statement (i : Instr) : Prop := ∃ sel code rest, encode i = sel :: code :: rest ∧ sel.toNat ≤ 4

theorem framePass : Statement .framePass := ⟨_, _, _, rfl, by decide⟩
theorem run : Statement .run := ⟨_, _, _, rfl, by decide⟩
theorem nextFrame : Statement .nextFrame := ⟨_, _, _, rfl, by decide⟩
theorem emitReport : Statement .emitReport := ⟨_, _, _, rfl, by decide⟩
theorem emitDiag : Statement .emitDiag := ⟨_, _, _, rfl, by decide⟩
theorem captureError : Statement .captureError := ⟨_, _, _, rfl, by decide⟩
theorem ethParse : Statement .ethParse := ⟨_, _, _, rfl, by decide⟩
theorem ethLenchk : Statement .ethLenchk := ⟨_, _, _, rfl, by decide⟩
theorem ethDst : Statement .ethDst := ⟨_, _, _, rfl, by decide⟩
theorem ethSrc : Statement .ethSrc := ⟨_, _, _, rfl, by decide⟩
theorem ethType : Statement .ethType := ⟨_, _, _, rfl, by decide⟩
theorem ethRest : Statement .ethRest := ⟨_, _, _, rfl, by decide⟩
theorem ethDispatch : Statement .ethDispatch := ⟨_, _, _, rfl, by decide⟩
theorem ipv4Parse : Statement .ipv4Parse := ⟨_, _, _, rfl, by decide⟩
theorem ipLenchk : Statement .ipLenchk := ⟨_, _, _, rfl, by decide⟩
theorem ipVihl : Statement .ipVihl := ⟨_, _, _, rfl, by decide⟩
theorem ipHlen : Statement .ipHlen := ⟨_, _, _, rfl, by decide⟩
theorem ipHlenchk : Statement .ipHlenchk := ⟨_, _, _, rfl, by decide⟩
theorem ipTotlen : Statement .ipTotlen := ⟨_, _, _, rfl, by decide⟩
theorem ipProto : Statement .ipProto := ⟨_, _, _, rfl, by decide⟩
theorem ipSrc : Statement .ipSrc := ⟨_, _, _, rfl, by decide⟩
theorem ipDst : Statement .ipDst := ⟨_, _, _, rfl, by decide⟩
theorem ipSlice : Statement .ipSlice := ⟨_, _, _, rfl, by decide⟩
theorem ipDispatch : Statement .ipDispatch := ⟨_, _, _, rfl, by decide⟩
theorem tcpParse : Statement .tcpParse := ⟨_, _, _, rfl, by decide⟩
theorem tcpLenchk : Statement .tcpLenchk := ⟨_, _, _, rfl, by decide⟩
theorem tcpSport : Statement .tcpSport := ⟨_, _, _, rfl, by decide⟩
theorem tcpDport : Statement .tcpDport := ⟨_, _, _, rfl, by decide⟩
theorem tcpSeq : Statement .tcpSeq := ⟨_, _, _, rfl, by decide⟩
theorem tcpAck : Statement .tcpAck := ⟨_, _, _, rfl, by decide⟩
theorem tcpDoff : Statement .tcpDoff := ⟨_, _, _, rfl, by decide⟩
theorem tcpDoffmin : Statement .tcpDoffmin := ⟨_, _, _, rfl, by decide⟩
theorem tcpHlenchk : Statement .tcpHlenchk := ⟨_, _, _, rfl, by decide⟩
theorem tcpFlags : Statement .tcpFlags := ⟨_, _, _, rfl, by decide⟩
theorem tcpWin : Statement .tcpWin := ⟨_, _, _, rfl, by decide⟩
theorem tcpFlagset : Statement .tcpFlagset := ⟨_, _, _, rfl, by decide⟩
theorem flagSyn : Statement .flagSyn := ⟨_, _, _, rfl, by decide⟩
theorem flagAck : Statement .flagAck := ⟨_, _, _, rfl, by decide⟩
theorem flagFin : Statement .flagFin := ⟨_, _, _, rfl, by decide⟩
theorem flagRst : Statement .flagRst := ⟨_, _, _, rfl, by decide⟩
theorem flagPsh : Statement .flagPsh := ⟨_, _, _, rfl, by decide⟩
theorem flagUrg : Statement .flagUrg := ⟨_, _, _, rfl, by decide⟩
theorem tcpPayload : Statement .tcpPayload := ⟨_, _, _, rfl, by decide⟩
theorem render : Statement .render := ⟨_, _, _, rfl, by decide⟩
theorem reportAssemble : Statement .reportAssemble := ⟨_, _, _, rfl, by decide⟩
theorem previewLen : Statement .previewLen := ⟨_, _, _, rfl, by decide⟩
theorem previewChar (b : Byte) : Statement (.previewChar b) := ⟨_, _, _, rfl, by decide⟩
theorem previewBuild : Statement .previewBuild := ⟨_, _, _, rfl, by decide⟩
theorem flagsText (flags : BitVec 6) : Statement (.flagsText flags) := ⟨_, _, _, rfl, by decide⟩
theorem ipv4Text (a : Word) : Statement (.ipv4Text a) := ⟨_, _, _, rfl, by decide⟩
theorem decText (v : Nat) : Statement (.decText v) := ⟨_, _, _, rfl, by decide⟩
theorem renderText (r : PacketReport) : Statement (.renderText r) := ⟨_, _, _, rfl, by decide⟩

end Sys2Proof.Laws.Encoding
end

