-- ==== Sys2Proof/Tests/Slice0.lean ====
section
/-! SUPPORT. The model's own tests: expected values from 95_test_vectors.md and from the rules, worked by hand; the
well-formedness smoke; and a witness for the hypotheses of every statement. -/

namespace Sys2Proof.Tests

open Sys2Proof Sys2Proof.Machine

/-! ## The frames of 95_test_vectors.md part 3 -/

/-- Frame P1. -/
def p1 : List Byte :=
  [0x00, 0x11, 0x22, 0x33, 0x44, 0x55, 0x66, 0x77, 0x88, 0x99, 0xaa, 0xbb, 0x08, 0x00, 0x45, 0x00]
  ++ [0x00, 0x28, 0x1c, 0x46, 0x40, 0x00, 0x40, 0x06, 0x9d, 0x36, 0xc0, 0xa8, 0x00, 0x02, 0xc0, 0xa8]
  ++ [0x00, 0x01, 0xc0, 0x00, 0x00, 0x50, 0x01, 0x02, 0x03, 0x04, 0x00, 0x00, 0x00, 0x00, 0x50, 0x02]
  ++ [0xfa, 0xf0, 0x00, 0x00, 0x00, 0x00]

/-- Frame P2. -/
def p2 : List Byte :=
  p1 ++ List.replicate 20 0

/-- Frame P2b. -/
def p2b : List Byte :=
  [0x00, 0x11, 0x22, 0x33, 0x44, 0x55, 0x66, 0x77, 0x88, 0x99, 0xaa, 0xbb, 0x08, 0x00, 0x45, 0x00]
  ++ [0x00, 0x3c, 0x1c, 0x46, 0x40, 0x00, 0x40, 0x06, 0x9d, 0x22, 0xc0, 0xa8, 0x00, 0x02, 0xc0, 0xa8]
  ++ [0x00, 0x01, 0xc0, 0x00, 0x00, 0x50, 0x01, 0x02, 0x03, 0x04, 0x00, 0x00, 0x00, 0x00, 0xa0, 0x02]
  ++ [0xfa, 0xf0, 0x00, 0x00, 0x00, 0x00, 0x02, 0x04, 0x05, 0xb4, 0x04, 0x02, 0x08, 0x0a, 0x00, 0x11]
  ++ [0x22, 0x33, 0x00, 0x00, 0x00, 0x00, 0x01, 0x03, 0x03, 0x07]

/-- Frame P3. -/
def p3 : List Byte :=
  [0x00, 0x11, 0x22, 0x33, 0x44, 0x55, 0x66, 0x77, 0x88, 0x99, 0xaa, 0xbb, 0x08, 0x00, 0x46, 0x00]
  ++ [0x00, 0x4a, 0x1c, 0x46, 0x40, 0x00, 0x40, 0x06, 0xdb, 0x87, 0x0a, 0x00, 0x00, 0x05, 0x5d, 0xb8]
  ++ [0xd8, 0x22, 0x01, 0x01, 0x01, 0x00, 0xc7, 0x38, 0x00, 0x50, 0xde, 0xad, 0xbe, 0xef, 0x00, 0x00]
  ++ [0x00, 0x01, 0x80, 0x18, 0x01, 0xf6, 0x00, 0x00, 0x00, 0x00, 0x01, 0x01, 0x08, 0x0a, 0x00, 0x00]
  ++ [0x00, 0x0a, 0x00, 0x00, 0x00, 0x14, 0x47, 0x45, 0x54, 0x20, 0x2f, 0x20, 0x48, 0x54, 0x54, 0x50]
  ++ [0x2f, 0x31, 0x2e, 0x31, 0x0d, 0x0a, 0x0d, 0x0a]

/-- Frame P4. -/
def p4 : List Byte :=
  [0x00, 0x11, 0x22, 0x33, 0x44, 0x55, 0x66, 0x77, 0x88, 0x99, 0xaa, 0xbb, 0x08, 0x00, 0x45, 0x00]
  ++ [0x00, 0x6e, 0x1c, 0x46, 0x40, 0x00, 0x40, 0x06, 0x9c, 0xf0, 0xc0, 0xa8, 0x00, 0x02, 0xc0, 0xa8]
  ++ [0x00, 0x01, 0x00, 0x01, 0x00, 0x02, 0xff, 0xff, 0xff, 0xff, 0xff, 0xff, 0xff, 0xff, 0x50, 0xff]
  ++ [0xff, 0xff, 0x00, 0x00, 0x00, 0x00]
  ++ (List.range 70).map (fun i => BitVec.ofNat 8 (0x1e + i))

/-- Frame P5. -/
def p5 : List Byte :=
  [0x00, 0x11, 0x22, 0x33, 0x44, 0x55, 0x66, 0x77, 0x88, 0x99, 0xaa, 0xbb, 0x08, 0x00, 0x45, 0x00]
  ++ [0x00, 0x24, 0x1c, 0x46, 0x40, 0x00, 0x40, 0x11, 0x9d, 0x2f, 0xc0, 0xa8, 0x00, 0x02, 0xc0, 0xa8]
  ++ [0x00, 0x01, 0x00, 0x35, 0x00, 0x35, 0x00, 0x10, 0x00, 0x00, 0x00, 0x00, 0x00, 0x00, 0x00, 0x00]
  ++ [0x00, 0x00]

/-- Frame P6. -/
def p6 : List Byte :=
  [0xff, 0xff, 0xff, 0xff, 0xff, 0xff, 0x66, 0x77, 0x88, 0x99, 0xaa, 0xbb, 0x08, 0x06, 0x00, 0x00]
  ++ [0x00, 0x00, 0x00, 0x00, 0x00, 0x00, 0x00, 0x00, 0x00, 0x00, 0x00, 0x00, 0x00, 0x00, 0x00, 0x00]
  ++ [0x00, 0x00, 0x00, 0x00, 0x00, 0x00, 0x00, 0x00, 0x00, 0x00]

/-- Frame P7. -/
def p7 : List Byte :=
  p1.take 13

/-- Frame P8. -/
def p8 : List Byte :=
  [0x00, 0x11, 0x22, 0x33, 0x44, 0x55, 0x66, 0x77, 0x88, 0x99, 0xaa, 0xbb, 0x08, 0x00, 0x45, 0x00]
  ++ [0x05, 0xdc, 0x1c, 0x46, 0x40, 0x00, 0x40, 0x06, 0x97, 0x82, 0xc0, 0xa8, 0x00, 0x02, 0xc0, 0xa8]
  ++ [0x00, 0x01, 0x01, 0xbb, 0xc3, 0x50, 0x00, 0x00, 0x00, 0x64, 0x00, 0x00, 0x00, 0xc8, 0x50, 0x10]
  ++ [0x04, 0x00, 0x00, 0x00, 0x00, 0x00, 0x30, 0x31, 0x32, 0x33, 0x34, 0x35, 0x36, 0x37, 0x38, 0x39]

/-- Frame P9. -/
def p9 : List Byte :=
  [0x00, 0x11, 0x22, 0x33, 0x44, 0x55, 0x66, 0x77, 0x88, 0x99, 0xaa, 0xbb, 0x08, 0x00, 0x45, 0x00]
  ++ [0x00, 0x2b, 0x1c, 0x46, 0x40, 0x00, 0x40, 0x06, 0x9d, 0x33, 0xc0, 0xa8, 0x00, 0x02, 0xc0, 0xa8]
  ++ [0x00, 0x01, 0x00, 0x07, 0x00, 0x09, 0x00, 0x00, 0x00, 0x00, 0x00, 0x00, 0x00, 0x00, 0x50, 0x00]
  ++ [0x00, 0x00, 0x00, 0x00, 0x00, 0x00, 0x41, 0x00, 0x42]

/-! ## Helpers -/

/-- A property of the next state; false of a fault or a refusal. -/
def holds (o : Host.Outcome State Fault Refusal) (p : State → Bool) : Bool :=
  match o with
  | .next t => p t
  | .fault _ => false
  | .refused _ => false

/-- A frame in flight right after reset. -/
def flight (bs : List Byte) : State := State.reset.loadFrame bs

/-- The status codes a pass on a frame puts on `DIAG_OUT`, with the number of its reports. -/
def verdictOf (bs : List Byte) : Option (List Byte × Nat) :=
  match exec .framePass (flight bs) with
  | .next t => some (t.diagOut, t.reportOut.length)
  | .fault _ => none
  | .refused _ => none

/-- The reports a pass on a frame delivers. -/
def reportsOf (bs : List Byte) : List PacketReport :=
  match exec .framePass (flight bs) with
  | .next t => t.reportOut
  | .fault _ => []
  | .refused _ => []

/-- The same frames all end with the same code and report count. -/
def allEnd (code : Byte) (reports : Nat) (frames : List (List Byte)) : Bool :=
  frames.all (fun bs => verdictOf bs == some ([code], reports))

/-- A frame with the byte at an offset changed. -/
def with1 (bs : List Byte) (i : Nat) (v : Byte) : List Byte := bs.set i v

/-- `InSlice` as a test. -/
def inSlice (bs : List Byte) (off len addr n : Nat) : Bool :=
  off ≤ addr && addr + n ≤ off + len && addr + n ≤ bs.length

/-- The state the wired operations leave before a stage, on a frame. -/
def atIp (bs : List Byte) : State := after [opEthParse] (flight bs)
/-- The state before the TCP stage. -/
def atTcp (bs : List Byte) : State := after [opEthParse, opIpv4Parse] (flight bs)
/-- The state before the report stage. -/
def atRender (bs : List Byte) : State := after [opEthParse, opIpv4Parse, opTcpParse] (flight bs)

/-- Record R-P1 of 95_test_vectors.md. -/
def rP1 : PacketReport :=
  { ipSrc := 0xC0A80002, ipDst := 0xC0A80001, ipTotalLength := 40, srcPort := 49152, dstPort := 80, seq := 16909060
    ack := 0, headerLen := 20, window := 64240, flags := 0b000001, payloadLen := 0, previewLen := 0, preview := [] }

/-- Record R-P3. -/
def rP3 : PacketReport :=
  { ipSrc := 0x0A000005, ipDst := 0x5DB8D822, ipTotalLength := 74, srcPort := 51000, dstPort := 80, seq := 3735928559
    ack := 1, headerLen := 32, window := 502, flags := 0b010010, payloadLen := 18, previewLen := 18
    preview := ascii "GET / HTTP/1.1...." }

/-- Record R-P8. -/
def rP8 : PacketReport :=
  { ipSrc := 0xC0A80002, ipDst := 0xC0A80001, ipTotalLength := 1500, srcPort := 443, dstPort := 50000, seq := 100
    ack := 200, headerLen := 20, window := 1024, flags := 0b000010, payloadLen := 10, previewLen := 10
    preview := ascii "0123456789" }

/-- Record R-P9. -/
def rP9 : PacketReport :=
  { ipSrc := 0xC0A80002, ipDst := 0xC0A80001, ipTotalLength := 43, srcPort := 7, dstPort := 9, seq := 0, ack := 0
    headerLen := 20, window := 0, flags := 0, payloadLen := 3, previewLen := 3, preview := [0x41, 0x2e, 0x42] }

/-- A preview buffer that starts with the characters A, full stop, B. -/
def abc : Preview := ((State.reset.pv.set 0 0x41).set 1 0x2e).set 2 0x42

/-! ## Well-formedness smoke: an ill-formed term for each test -/

theorem test_wf_refuses_long_integer : (Instr.decText (256 ^ 255)).wf = false := by decide
theorem test_wf_refuses_short_preview : (Instr.renderText { rP9 with preview := [0x41] }).wf = false := by decide
theorem test_wf_refuses_long_preview :
    (Instr.renderText { rP9 with previewLen := 65, preview := List.replicate 65 0x41 }).wf = false := by decide
theorem test_wf_accepts : (Instr.renderText rP9).wf = true ∧ (Instr.decText 4294967295).wf = true := by decide

/-- The frame of R74 that has P3's fields. -/
def specP3 : FrameSpec :=
  { ethDst := 0x001122334455, ethSrc := 0x66778899AABB, tos := 0, ident := 0x1c46, fragment := 0x4000, ttl := 0x40
    ipChecksum := 0xdb87, ipSrc := 0x0A000005, ipDst := 0x5DB8D822, ipOptions := [1, 1, 1, 0], srcPort := 51000
    dstPort := 80, seq := 0xDEADBEEF, ack := 1, reserved := 0, flags := 0x18, window := 502, tcpChecksum := 0, urgent := 0
    tcpOptions := [0x01, 0x01, 0x08, 0x0a, 0, 0, 0, 0x0a, 0, 0, 0, 0x14], payload := p3.drop 70, trailing := [] }

theorem test_wf_refuses_frames :
    ({ specP3 with ipOptions := [1] } : FrameSpec).wf = false
    ∧ ({ specP3 with ipOptions := List.replicate 44 1 } : FrameSpec).wf = false
    ∧ ({ specP3 with tcpOptions := [1, 1] } : FrameSpec).wf = false
    ∧ ({ specP3 with tcpOptions := List.replicate 44 1 } : FrameSpec).wf = false := by decide

/-- A packet one byte too long for R74. -/
theorem test_wf_refuses_long_packet (p : List Byte) (h : p.length = 65480) :
    ({ specP3 with payload := p } : FrameSpec).wf = false := by
  simp [FrameSpec.wf, specP3, h, Config.wordBytes]

/-- The reference encoder gives frame P3 byte for byte (R74, S1). -/
theorem test_encode_frame_P3 : encodeFrame specP3 = p3 := by decide

/-! ## Decoding: the spec's codes, written out from R66 and R67 -/

theorem test_decode_ipv4 : decode [1, 0x08, 0x00] = .ok .ipv4Parse [] := by decide
theorem test_decode_ethertype_little_endian_skips : decode [1, 0x00, 0x08] = .rejected (.ethertypeSkips 8) := by decide
theorem test_decode_tcp : decode [2, 0x06] = .ok .tcpParse [] := by decide
theorem test_decode_flags :
    [0x02, 0x10, 0x01, 0x04, 0x08, 0x20].map (fun m => decode [3, m])
      = [.ok .flagSyn [], .ok .flagAck [], .ok .flagFin [], .ok .flagRst [], .ok .flagPsh [], .ok .flagUrg []] := by decide
theorem test_decode_flag_rows : flagRows 0xFF = [.flagSyn, .flagAck, .flagFin, .flagRst, .flagPsh, .flagUrg]
    ∧ flagRows 0xC2 = [.flagSyn] ∧ flagRows 0x29 = [.flagFin, .flagPsh, .flagUrg] := by decide
theorem test_decode_status : decode [4, 0x00] = .ok .emitReport [] ∧ decode [4, 0xC1] = .ok .captureError []
    ∧ decode [4, 0x91] = .rejected (.statusSelectsNothing 0x91) := by decide
theorem test_decode_wired : decode [0, 7, 9] = .ok .ethLenchk [9] ∧ decode [0, 43] = .ok .render []
    ∧ decode [0, 52] = .rejected (.unknownOperation 52) ∧ decode [5] = .rejected (.unknownSelector 5)
    ∧ decode [] = .rejected .truncated := by decide
/-- Every wired row without an operand, by its row of opcode_table.json counted from 0. -/
theorem test_decode_wired_rows_1 :
    [(0, Instr.framePass), (1, .run), (2, .nextFrame), (4, .emitDiag), (6, .ethParse), (7, .ethLenchk), (8, .ethDst),
      (9, .ethSrc), (10, .ethType), (11, .ethRest), (12, .ethDispatch), (14, .ipLenchk), (15, .ipVihl), (16, .ipHlen),
      (17, .ipHlenchk), (18, .ipTotlen), (19, .ipProto), (20, .ipSrc)].all
      (fun r => decode [0, BitVec.ofNat 8 r.1] == .ok r.2 []) = true := by decide
theorem test_decode_wired_rows_2 :
    [(21, Instr.ipDst), (22, .ipSlice), (23, .ipDispatch), (25, .tcpLenchk), (26, .tcpSport), (27, .tcpDport),
      (28, .tcpSeq), (29, .tcpAck), (30, .tcpDoff), (31, .tcpDoffmin), (32, .tcpHlenchk), (33, .tcpFlags), (34, .tcpWin),
      (35, .tcpFlagset), (42, .tcpPayload), (43, .render), (44, .reportAssemble), (45, .previewLen),
      (47, .previewBuild)].all
      (fun r => decode [0, BitVec.ofNat 8 r.1] == .ok r.2 []) = true := by decide
theorem test_decode_operands : decode [0, 46, 0x1f] = .ok (.previewChar 0x1f) []
    ∧ decode [0, 49, 0xC0, 0xA8, 0x00, 0x02] = .ok (.ipv4Text 0xC0A80002) []
    ∧ decode [0, 50, 2, 0xff, 0xff, 7] = .ok (.decText 65535) [7]
    ∧ decode [0, 48, 0x40] = .rejected .badReport := by decide
/-- Record R-P1, its thirteen fields written out in the order of R21. -/
theorem test_decode_report_P1 :
    decode ([0, 51, 0xC0, 0xA8, 0x00, 0x02, 0xC0, 0xA8, 0x00, 0x01, 0x00, 0x28, 0xC0, 0x00, 0x00, 0x50]
      ++ [0x01, 0x02, 0x03, 0x04, 0x00, 0x00, 0x00, 0x00, 0x14, 0xFA, 0xF0, 0x01, 0x00, 0x00, 0x00])
      = .ok (.renderText rP1) [] := by decide
theorem test_decode_flags_text : decode [0, 48, 0x3F] = .ok (.flagsText 0b111111) [] := by decide
theorem test_decode_report : decode (encode (.renderText rP3)) = .ok (.renderText rP3) [] := by decide
theorem test_table_word_other_widths : decodeTableWord 32 0x0800 = none ∧ decodeTableWord 16 0x86DD = none := by decide

/-- Each code, placed, is the operation the very next step makes, and it gives a next state. -/
theorem test_placed_codes_run :
    [(16, 0x0800), (8, 6), (8, 2), (8, 0x10), (8, 1), (8, 4), (8, 8), (8, 0x20), (8, 0), (8, 0xC1)].all
      (fun c => (State.reset.withFetchWord c.1 c.2).op == decodeTableWord c.1 c.2
        && holds (step (State.reset.withFetchWord c.1 c.2)) (fun _ => true)) = true := by decide

/-! ## Status codes (R251), the field layout (R72), the encodings of `LOOP` and `STAGE` (R12, R13) -/

theorem test_codes : [Cause.report, .ethertype, .protocol, .ethShort, .ipTotlenLtHlen, .tcpDoffGtBuf, .captureError].map
    Cause.code = [0x00, 0x51, 0x61, 0x91, 0xA4, 0xB3, 0xC1] := by decide
theorem test_control_codes : LoopState.halted.code = 1 ∧ [Stage.idle, .eth, .ip, .tcp, .render].map Stage.code
    = [0, 1, 2, 3, 4] := by decide

/-! ## The vectors of 95_test_vectors.md 2.1 to 2.3 and 2.7 -/

/-- E1 to E3, P7. -/
theorem test_eth_short : allEnd 0x91 0 [[], p1.take 1, p7] = true := by decide
/-- E5 to E10. -/
theorem test_ethertype_skips :
    allEnd 0x51 0 [p6.take 14, p6, with1 (with1 p1 12 0x00) 13 0x08, with1 (with1 p1 12 0x86) 13 0xdd,
      with1 (with1 p1 12 0x81) 13 0x00, with1 p1 13 0x01, with1 (with1 p1 12 0x05) 13 0xdc] = true := by decide
/-- E4, I1, I21. -/
theorem test_ip_short : allEnd 0xA1 0 [p1.take 14, p1.take 33, (with1 p1 23 0x11).take 33] = true := by decide
/-- I3, I4, Q7. -/
theorem test_ihl_too_small :
    allEnd 0xA2 0 [with1 p1 14 0x44, with1 p1 14 0x40, with1 (with1 p1 14 0x44) 23 0x11] = true := by decide
/-- I7, I9, Q5. -/
theorem test_ihl_beyond_buffer :
    allEnd 0xA3 0 [with1 p1 14 0x4f, (with1 p1 14 0x46).take 37, with1 (with1 p1 14 0x4f) 17 0x00] = true := by decide
/-- I11, I12, I13, I20. -/
theorem test_total_length_too_small :
    allEnd 0xA4 0 [with1 p2 14 0x4f, with1 p1 17 0x13, with1 p1 17 0x00, with1 (with1 p1 23 0x11) 17 0x13] = true := by decide
/-- I18, I19, P5. -/
theorem test_protocol_skips :
    allEnd 0x61 0 [with1 p1 23 0x11, with1 p1 23 0x01, with1 p1 23 0x00, with1 p1 23 0xff, p5] = true := by decide
/-- I2, I8, I10, I14, I15, T1, Q6. -/
theorem test_tcp_short :
    allEnd 0xB1 0 [p1.take 34, with1 p1 14 0x46, (with1 p1 14 0x46).take 38, with1 p1 17 0x14, with1 p1 17 0x27,
      p1.take 53, (with1 p1 46 0x40).take 53] = true := by decide
/-- T2, T3. -/
theorem test_data_offset_too_small : allEnd 0xB2 0 [with1 p1 46 0x40, with1 p1 46 0x00] = true := by decide
/-- T4, T5, T7. -/
theorem test_data_offset_beyond_segment :
    allEnd 0xB3 0 [with1 p1 46 0x60, with1 p1 46 0xf0, with1 p1 46 0x60 ++ [0, 0, 0, 0]] = true := by decide
/-- E11, I5, I6, I22, I23, I24, T6, T12, P2: the record is R-P1. -/
theorem test_ignored_bits :
    [p1, p2, with1 p1 0 0xff, with1 p1 14 0x65, with1 p1 14 0x05, with1 (with1 p1 20 0x20) 21 0xb9,
      with1 (with1 p1 24 0) 25 0, with1 p1 22 0, with1 p1 46 0x5f, with1 p1 50 0xff, with1 p1 53 0xff].all
      (fun bs => reportsOf bs == [rP1] && verdictOf bs == some ([0x00], 1)) = true := by decide
/-- I16, I17. -/
theorem test_truncated_capture_totals :
    reportsOf (with1 p1 17 0x29) = [{ rP1 with ipTotalLength := 41 }]
    ∧ reportsOf (with1 (with1 p1 16 0xff) 17 0xff) = [{ rP1 with ipTotalLength := 65535 }] := by decide
/-- T8, T9, T10. -/
theorem test_options_are_skipped :
    reportsOf (with1 (with1 p1 46 0x60) 17 0x2c ++ [1, 1, 1, 1]) = [{ rP1 with headerLen := 24, ipTotalLength := 44 }]
    ∧ reportsOf (with1 (with1 p1 46 0xf0) 17 0x50 ++ List.replicate 40 0)
      = [{ rP1 with headerLen := 60, ipTotalLength := 80 }]
    ∧ reportsOf p2b = [{ rP1 with ipTotalLength := 60, headerLen := 40 }] := by decide

/-! ## Whole frames -/

theorem test_P3 : reportsOf p3 = [rP3] := by decide
theorem test_P8 : reportsOf p8 = [rP8] := by decide
theorem test_P9 : reportsOf p9 = [rP9] := by decide
/-- P4: every field at its maximum (the 70-byte payload cut to 2 bytes, the test's own frame). -/
theorem test_P4_maxima : (reportsOf (p4.take 56)).all (fun r => r.srcPort == 1 && r.dstPort == 2
    && r.seq == 0xFFFFFFFF && r.ack == 0xFFFFFFFF && r.window == 0xFFFF && r.flags == 0b111111
    && r.ipTotalLength == 110 && r.payloadLen == 2 && r.previewLen == 2 && r.preview == [0x2e, 0x2e]) = true := by decide
/-- V16: of a 70-byte payload the preview takes 64 bytes. -/
theorem test_V16 : holds (exec .previewLen { State.reset with regs := { State.reset.regs with payLen := 70 } })
    (fun t => t.regs.pvLen == 64) = true := by decide

/-! ## One operation at a time: the registers listed under P1 and P3 -/

theorem test_ETH_PARSE : holds (exec .ethParse (flight p1)) (fun t => t.stage == .ip
    && t.regs.ethDst == 0x001122334455 && t.regs.ethSrc == 0x66778899AABB && t.regs.ethType == 0x0800
    && t.regs.ipOff == 14 && t.regs.ipLen == 40) = true := by decide
theorem test_ETH_LENCHK : holds (exec .ethLenchk (flight p7)) (fun t => t.status == 0x91 && t.diagOut == [0x91]
    && t.stage == .idle && !t.inFlight) = true := by decide
theorem test_ETH_DST : holds (exec .ethDst (flight p1)) (fun t => t.regs.ethDst == 0x001122334455) = true := by decide
theorem test_ETH_SRC : holds (exec .ethSrc (flight p1)) (fun t => t.regs.ethSrc == 0x66778899AABB) = true := by decide
theorem test_ETH_TYPE : holds (exec .ethType (flight p6)) (fun t => t.regs.ethType == 0x0806) = true := by decide
theorem test_ETH_REST : holds (exec .ethRest (flight p2)) (fun t => t.regs.ipOff == 14 && t.regs.ipLen == 60) = true := by
  decide
theorem test_ETH_DISPATCH :
    holds (exec .ethDispatch { flight p1 with regs := { State.reset.regs with ethType := 0x0801 } })
      (fun t => t.status == 0x51 && t.reportOut == []) = true := by decide

theorem test_IPV4_PARSE : holds (exec .ipv4Parse (atIp p3)) (fun t => t.stage == .tcp && t.regs.ipHlen == 24
    && t.regs.segOff == 38 && t.regs.segLen == 50 && t.regs.ipProto == 6) = true := by decide
theorem test_IP_LENCHK : holds (exec .ipLenchk (atIp (p1.take 33))) (fun t => t.status == 0xA1) = true := by decide
theorem test_IP_VIHL : holds (exec .ipVihl (atIp p3)) (fun t => t.regs.ipVihl == 0x46) = true := by decide
theorem test_IP_HLEN :
    holds (exec .ipHlen { flight p1 with regs := { State.reset.regs with ipVihl := 0x6f } }) (fun t => t.regs.ipHlen == 60)
      = true := by decide
theorem test_IP_HLENCHK :
    holds (exec .ipHlenchk { flight p1 with regs := { State.reset.regs with ipHlen := 24, ipLen := 23 } })
      (fun t => t.status == 0xA3) = true := by decide
theorem test_IP_TOTLEN : holds (exec .ipTotlen (atIp p8)) (fun t => t.regs.ipTotlen == 1500) = true := by decide
theorem test_IP_PROTO : holds (exec .ipProto (atIp p5)) (fun t => t.regs.ipProto == 17) = true := by decide
theorem test_IP_SRC : holds (exec .ipSrc (atIp p3)) (fun t => t.regs.ipSrc == 0x0A000005) = true := by decide
theorem test_IP_DST : holds (exec .ipDst (atIp p3)) (fun t => t.regs.ipDst == 0x5DB8D822) = true := by decide
theorem test_IP_SLICE :
    holds (exec .ipSlice { flight p8 with regs := { State.reset.regs with ipTotlen := 1500, ipHlen := 20, ipLen := 50 } })
      (fun t => t.regs.segOff == 34 && t.regs.segLen == 30) = true := by decide
theorem test_IP_DISPATCH :
    holds (exec .ipDispatch { flight p5 with regs := { State.reset.regs with ipProto := 17 } }) (fun t => t.status == 0x61)
      = true := by decide

theorem test_TCP_PARSE : holds (exec .tcpParse (atTcp p3)) (fun t => t.stage == .render && t.regs.tcpDoff == 8
    && t.regs.tcpHlen == 32 && t.regs.flagset == 0b010010 && t.regs.payOff == 70 && t.regs.payLen == 18) = true := by decide
theorem test_TCP_LENCHK : holds (exec .tcpLenchk (atTcp (p1.take 53))) (fun t => t.status == 0xB1) = true := by decide
theorem test_TCP_SPORT : holds (exec .tcpSport (atTcp p1)) (fun t => t.regs.tcpSport == 49152) = true := by decide
theorem test_TCP_DPORT : holds (exec .tcpDport (atTcp p8)) (fun t => t.regs.tcpDport == 50000) = true := by decide
theorem test_TCP_SEQ : holds (exec .tcpSeq (atTcp p1)) (fun t => t.regs.tcpSeq == 16909060) = true := by decide
theorem test_TCP_ACK : holds (exec .tcpAck (atTcp p3)) (fun t => t.regs.tcpAck == 1) = true := by decide
theorem test_TCP_DOFF : holds (exec .tcpDoff (atTcp (with1 p1 46 0x5f)))
    (fun t => t.regs.tcpDoff == 5 && t.regs.tcpHlen == 20) = true := by decide
theorem test_TCP_DOFFMIN :
    holds (exec .tcpDoffmin { flight p1 with regs := { State.reset.regs with tcpDoff := 4 } }) (fun t => t.status == 0xB2)
      = true := by decide
theorem test_TCP_HLENCHK :
    holds (exec .tcpHlenchk { flight p1 with regs := { State.reset.regs with tcpHlen := 20, segLen := 20 } })
      (fun t => t.stage == .idle && t.inFlight) = true := by decide
theorem test_TCP_FLAGS : holds (exec .tcpFlags (atTcp p3)) (fun t => t.regs.tcpFlags == 0x18) = true := by decide
theorem test_TCP_WIN : holds (exec .tcpWin (atTcp p1)) (fun t => t.regs.tcpWin == 64240) = true := by decide
theorem test_TCP_PAYLOAD :
    holds (exec .tcpPayload { flight p3 with regs := { State.reset.regs with segOff := 38, segLen := 50, tcpHlen := 32 } })
      (fun t => t.regs.payOff == 70 && t.regs.payLen == 18) = true := by decide

/-- The flag set of a flags byte, from an arbitrary earlier value. -/
def flagsetOf (old : BitVec 6) (flags : Byte) : Option (BitVec 6) :=
  match exec .tcpFlagset { State.reset with regs := { State.reset.regs with flagset := old, tcpFlags := flags } } with
  | .next t => some t.regs.flagset
  | .fault _ => none
  | .refused _ => none

/-- F1 to F20. -/
theorem test_TCP_FLAGSET :
    [0x00, 0x01, 0x02, 0x04, 0x08, 0x10, 0x20, 0x12, 0x11, 0x18, 0x14, 0x05, 0x30, 0x29, 0x3F, 0x40, 0x80, 0xC0, 0xC2,
      0xFF].map (flagsetOf 0b101010)
    = [0b000000, 0b000100, 0b000001, 0b001000, 0b010000, 0b000010, 0b100000, 0b000011, 0b000110, 0b010010, 0b001010,
      0b001100, 0b100010, 0b110100, 0b111111, 0b000000, 0b000000, 0b000000, 0b000001, 0b111111].map some := by decide

/-- One flag row by itself: its bit from `TCP_FLAGS`, the others as they were. -/
def flagRowOf (i : Instr) (old : BitVec 6) (flags : Byte) : Option (BitVec 6) :=
  match exec i { State.reset with regs := { State.reset.regs with flagset := old, tcpFlags := flags } } with
  | .next t => some t.regs.flagset
  | .fault _ => none
  | .refused _ => none

theorem test_FLAG_SYN : flagRowOf .flagSyn 0b111111 0x10 = some 0b111110 ∧ flagRowOf .flagSyn 0 0x02 = some 0b000001 := by
  decide
theorem test_FLAG_ACK : flagRowOf .flagAck 0b111111 0x02 = some 0b111101 ∧ flagRowOf .flagAck 0 0x12 = some 0b000010 := by
  decide
theorem test_FLAG_FIN : flagRowOf .flagFin 0b111111 0x04 = some 0b111011 ∧ flagRowOf .flagFin 0 0x01 = some 0b000100 := by
  decide
theorem test_FLAG_RST : flagRowOf .flagRst 0b111111 0x08 = some 0b110111 ∧ flagRowOf .flagRst 0 0x04 = some 0b001000 := by
  decide
theorem test_FLAG_PSH : flagRowOf .flagPsh 0b111111 0x10 = some 0b101111 ∧ flagRowOf .flagPsh 0 0x08 = some 0b010000 := by
  decide
theorem test_FLAG_URG : flagRowOf .flagUrg 0b111111 0x1F = some 0b011111 ∧ flagRowOf .flagUrg 0 0xE0 = some 0b100000 := by
  decide

/-- V1 to V5. -/
theorem test_PREVIEW_LEN :
    [0, 1, 63, 64, 65, 1460].all (fun n =>
      holds (exec .previewLen { State.reset with regs := { State.reset.regs with payLen := n } })
        (fun t => t.regs.pvLen.toNat == if n < 64 then n else 64)) = true := by decide
/-- V6 to V13. -/
theorem test_PREVIEW_CHAR :
    [0x41, 0x00, 0x42, 0x1f, 0x20, 0x7e, 0x7f, 0x80, 0xff, 0x09, 0x2e].map previewChar
      = [0x41, 0x2e, 0x42, 0x2e, 0x20, 0x7e, 0x2e, 0x2e, 0x2e, 0x2e, 0x2e]
    ∧ holds (exec (.previewChar 0x0a) State.reset) (fun t => t.charOut == 0x2e) = true := by decide
theorem test_PREVIEW_BUILD :
    holds (exec .previewBuild { flight p9 with regs := { State.reset.regs with payOff := 54, payLen := 3, pvLen := 3 } })
      (fun t => t.pv.toList.take 3 == [0x41, 0x2e, 0x42]) = true := by decide
/-- U4: beyond `L`, and beyond the slice in a longer frame. -/
theorem test_PREVIEW_BUILD_out_of_bounds :
    exec .previewBuild { flight p9 with regs := { State.reset.regs with payOff := 56, payLen := 9, pvLen := 3 } }
      = .fault (.outOfBounds 57 1)
    ∧ exec .previewBuild { flight p9 with regs := { State.reset.regs with payOff := 54, payLen := 1, pvLen := 3 } }
      = .fault (.outOfBounds 55 1) := ⟨rfl, rfl⟩
/-- U4: a byte of the frame behind a short slice is no value. -/
theorem test_reads_beyond_the_slice :
    exec .ipDst { flight p1 with regs := { State.reset.regs with ipOff := 14, ipLen := 19 } } = .fault (.outOfBounds 30 4)
    ∧ exec .tcpDoff { flight p1 with regs := { State.reset.regs with segOff := 34, segLen := 12 } }
      = .fault (.outOfBounds 46 1) := ⟨rfl, rfl⟩
theorem test_REPORT_ASSEMBLE :
    holds (exec .reportAssemble { atRender p9 with
        pv := abc, regs := { (atRender p9).regs with pvLen := 3 } })
      (fun t => t.regs.report == rP9) = true := by decide
theorem test_RENDER : holds (exec .render (atRender p1)) (fun t => t.status == 0x00 && t.regs.report == rP1
    && t.regs.pvLen == 0) = true := by decide

/-! ## Text (2.6) -/

theorem test_FLAGS_TEXT :
    [0b000000, 0b000001, 0b000011, 0b010010, 0b110100, 0b111111].map flagsText
      = ["(none)", "SYN", "SYN, ACK", "ACK, PSH", "FIN, PSH, URG", "SYN, ACK, FIN, RST, PSH, URG"].map ascii := by decide
theorem test_IPV4_TEXT : [0xC0A80002, 0x0A000005, 0x5DB8D822, 0x00000000, 0xFFFFFFFF].map ipv4Text
    = ["192.168.0.2", "10.0.0.5", "93.184.216.34", "0.0.0.0", "255.255.255.255"].map ascii := by decide
theorem test_DEC_TEXT : [0, 80, 65535, 3735928559, 4294967295].map decText
    = ["0", "80", "65535", "3735928559", "4294967295"].map ascii := by decide
/-- X8: the lines under P1, the Preview line left out. -/
theorem test_RENDER_TEXT_P1 : (reportLines rP1).length = 6
    ∧ (reportLines rP1)[1]? = some (ascii " IP Layer: src=192.168.0.2, dst=192.168.0.1, total_length=40")
    ∧ (reportLines rP1)[4]? = some (ascii " Flags: SYN") ∧ (reportLines rP1)[5]? = some (ascii " Payload: 0 bytes")
    ∧ (renderText rP1).take 12 = ascii "TCP Packet\n " := by decide
/-- X9: lines 3, 4 and 7 under P3. -/
theorem test_RENDER_TEXT_P3 :
    (reportLines rP3)[2]? = some (ascii " TCP Layer: src_port=51000, dst_port=80, seq=3735928559, ack=1,")
    ∧ (reportLines rP3)[3]? = some (ascii "            header_len=32, window=502")
    ∧ (reportLines rP3)[6]? = some (ascii "   Preview: GET / HTTP/1.1....") ∧ (reportLines rP3).length = 7 := by decide

/-! ## The host's side: G1 to G3 -/

theorem test_NEXT_FRAME : holds (exec .nextFrame { State.reset with answers := [.frame p7, .error ⟨3⟩] })
    (fun t => t.inFlight && t.len == 13 && t.answers == [.error ⟨3⟩] && Memory.read t.fb 12 == some 0x08) = true := by decide
theorem test_NEXT_FRAME_error : holds (exec .nextFrame { State.reset with answers := [.error ⟨3⟩] })
    (fun t => t.loop == .halted && t.diagOut == [0xC1] && t.errorOut == [⟨3⟩]) = true := by decide
theorem test_EMIT_REPORT : holds (exec .emitReport { State.reset with regs := { State.reset.regs with report := rP1 } })
    (fun t => t.reportOut == [rP1] && t.diagOut == []) = true := by decide
/-- R286: a sink that takes the record after one more turn, and one that never does. -/
theorem test_EMIT_REPORT_waits :
    holds (exec .emitReport { State.reset with sink := [.takesAfter 1], regs := { State.reset.regs with report := rP1 } })
      (fun t => t.reportOut == [] && t.pending == some rP1 && t.sink == [.takesAfter 0]) = true
    ∧ holds (exec .framePass { flight p1 with sink := [.never] })
      (fun t => t.reportOut == [] && t.pending == some rP1 && t.diagOut == [] && t.loop == .running) = true := by decide
theorem test_EMIT_DIAG : holds (exec .emitDiag { State.reset with status := 0x61, diagOut := [0x00] })
    (fun t => t.diagOut == [0x00, 0x61]) = true := by decide
theorem test_CAPTURE_ERROR : holds (exec .captureError { State.reset with sourceError := some ⟨9⟩ })
    (fun t => t.loop == .halted && t.status == 0xC1 && t.errorOut == [⟨9⟩]) = true := by decide
/-- G1. -/
theorem test_RUN_G1 :
    holds (exec .run { State.reset with answers := [.frame p1, .frame p6, .frame p7, .frame p3, .error ⟨9⟩, .frame p1] })
      (fun t => t.reportOut == [rP1, rP3] && t.diagOut == [0x00, 0x51, 0x91, 0x00, 0xC1] && t.loop == .halted
        && t.stage == .idle && t.status == 0xC1 && t.errorOut == [⟨9⟩] && t.answers == [.frame p1]) = true := by decide
/-- G2. -/
theorem test_RUN_G2 : holds (exec .run { State.reset with answers := [.frame p5, .frame p5] })
    (fun t => t.reportOut == [] && t.diagOut == [0x61, 0x61] && t.loop == .running && t.answers == []) = true := by decide
/-- G3: reset leaves the halted state. -/
theorem test_reset_leaves_halted : holds (step { State.reset with loop := .halted, resetIn := [0], answers := [.frame p9] })
    (fun t => t.loop == .running && t.stage == .idle && t.answers == [.frame p9] && t.resetIn == []) = true := by decide
/-- U13: reset drops the record pending, and the sink's turn for it. -/
theorem test_reset_drops_the_pending_record :
    holds (step { State.reset with pending := some rP1, sink := [.never], resetIn := [0] })
      (fun t => t.pending == none && t.reportOut == [] && t.sink == []) = true := by decide
/-- After `NEXT_FRAME` answered a frame the pass starts; an Ethernet raise ends it. -/
theorem test_step_starts_the_pass : holds (step { State.reset with answers := [.frame p1] })
    (fun t => t.op == some .ethParse && t.inFlight) = true := by decide
/-- R22: the last pass's code does not survive into the next pass. -/
theorem test_status_does_not_survive : (fun c : Byte => exec .nextFrame { State.reset with status := c, answers := [.frame p1] })
    = fun _ => exec .nextFrame { State.reset with answers := [.frame p1] } := rfl
theorem test_step_drops_a_runt : holds (step { flight p7 with op := some .ethParse })
    (fun t => t.op == none && t.diagOut == [0x91] && !t.inFlight) = true := by decide
theorem test_step_waits : holds (step State.reset) (fun t => t.answers == [] && t.loop == .running && t.op == none)
    = true := by decide

/-! ## Witnesses: states and operands that meet each statement's hypotheses, clause by clause -/

theorem witness_DecodeEncodeRoundTrip : (Instr.renderText rP3).wf = true ∧ (Instr.decText 0).wf = true
    ∧ (Instr.decText (256 ^ 255 - 1)).wf = true := by decide
theorem witness_StepMakesTheNextOperation :
    (∃ t, ({ flight p1 with op := some .ethParse } : State).resetIn = []
      ∧ exec .ethParse { { flight p1 with op := some .ethParse } with op := none } = .next t ∧ t.stage = .ip)
    ∧ State.reset.loop = .running ∧ (∃ t, exec .nextFrame State.reset = .next t)
    ∧ ({ State.reset with loop := .halted } : State).op = none :=
  ⟨⟨_, rfl, rfl, rfl⟩, rfl, ⟨_, rfl⟩, rfl⟩
theorem witness_PlacedCodeRunsNext : decodeTableWord 8 0x20 = some .flagUrg
    ∧ ∃ t, exec .flagUrg { State.reset.withFetchWord 8 0x20 with op := none } = .next t :=
  ⟨by decide, _, rfl⟩
theorem witness_ResetAbandonsThePass :
    ({ flight p1 with resetIn := [0, 2] } : State).resetIn = 0 :: [2]
    ∧ ({ flight p1 with resetIn := [3] } : State).resetIn = (2 + 1) :: [] := ⟨rfl, rfl⟩
theorem witness_EthLengthTest : (flight p7).len < 14 ∧ 14 ≤ (flight (p1.take 14)).len := by decide
theorem witness_EthFieldsExtracted : FrameIn (flight (p1.take 14)) (p1.take 14) ∧ 14 ≤ (p1.take 14).length
    ∧ (p1.take 14)[12]? = some 0x08 ∧ (p1.take 14)[13]? = some 0x00 := ⟨⟨rfl, rfl⟩, by decide, by decide, by decide⟩
theorem witness_EthSliceAndDispatch : 14 ≤ (flight p1).len
    ∧ ({ State.reset.regs with ethType := 0x0800 } : Regs).ethType = 0x0800
    ∧ ({ State.reset.regs with ethType := 0x0801 } : Regs).ethType ≠ 0x0800 := by decide
theorem witness_EthStage : (flight p1).inFlight = true ∧ FrameIn (flight p1) p1 ∧ Ref.ethCause p1 = none
    ∧ Ref.ethCause p7 = some .ethShort ∧ Ref.ethCause p6 = some .ethertype :=
  ⟨rfl, ⟨rfl, rfl⟩, by decide, by decide, by decide⟩

/-- Stage registers at the boundary values of the tests. -/
def edgeRegs : Regs :=
  { State.reset.regs with
    ipLen := 20, ipHlen := 20, ipProto := 6, ipVihl := 0x45, ipTotlen := 20, segOff := 34, segLen := 20, tcpDoff := 5
    tcpHlen := 20, payOff := 54, payLen := 0, pvLen := 0 }
/-- The other side of each boundary. -/
def lowRegs : Regs :=
  { edgeRegs with
    ipLen := 19, ipHlen := 20, ipProto := 7, ipVihl := 0x44, ipTotlen := 19, segLen := 19, tcpDoff := 4, tcpHlen := 20 }

theorem witness_IpTests : lowRegs.ipLen < 20 ∧ 20 ≤ edgeRegs.ipLen ∧ lowRegs.ipLen < lowRegs.ipHlen
    ∧ edgeRegs.ipHlen ≤ edgeRegs.ipLen ∧ lowRegs.ipProto ≠ 6 ∧ edgeRegs.ipProto = 6 := by decide
/-- The five reads, on a slice that ends with the last of them. -/
theorem witness_IpFieldsExtracted : FrameIn (atIp (p1.take 34)) (p1.take 34)
    ∧ [(14, 1), (16, 2), (23, 1), (26, 4), (30, 4)].all
      (fun r => inSlice (p1.take 34) (atIp (p1.take 34)).regs.ipOff (atIp (p1.take 34)).regs.ipLen r.1 r.2) = true :=
  ⟨⟨rfl, rfl⟩, by decide⟩
theorem witness_IpHeaderLength : lowRegs.ipVihl.toNat % 16 < 5 ∧ 5 ≤ edgeRegs.ipVihl.toNat % 16 := by decide
theorem witness_IpPayloadSlice : lowRegs.ipTotlen.toNat < lowRegs.ipHlen ∧ edgeRegs.ipHlen ≤ edgeRegs.ipTotlen.toNat
    ∧ edgeRegs.ipHlen ≤ edgeRegs.ipLen := by decide
theorem witness_Ipv4Stage : (atIp p1).inFlight = true ∧ FrameIn (atIp p1) p1 ∧ 14 ≤ p1.length
    ∧ (atIp p1).regs.ipOff = 14 ∧ (atIp p1).regs.ipLen = p1.length - 14 ∧ Ref.ipCause p1 = none
    ∧ [p1.take 33, with1 p1 14 0x44, with1 p1 14 0x4f, with1 p1 17 0x13, p5].map Ref.ipCause
      = [some .ipShort, some .ipIhlLtMin, some .ipIhlGtBuf, some .ipTotlenLtHlen, some .protocol] :=
  ⟨rfl, ⟨rfl, rfl⟩, by decide, rfl, rfl, by decide, by decide⟩
theorem witness_TcpTests : lowRegs.segLen < 20 ∧ 20 ≤ edgeRegs.segLen ∧ lowRegs.tcpDoff.toNat < 5
    ∧ 5 ≤ edgeRegs.tcpDoff.toNat ∧ lowRegs.segLen < lowRegs.tcpHlen ∧ edgeRegs.tcpHlen ≤ edgeRegs.segLen := by decide
/-- The six reads, on a slice that ends with the last of them. -/
theorem witness_TcpFieldsExtracted : FrameIn (atTcp (p1.take 50)) (p1.take 50)
    ∧ [(34, 2), (36, 2), (38, 4), (42, 4), (47, 1), (48, 2)].all
      (fun r => inSlice (p1.take 50) (atTcp (p1.take 50)).regs.segOff (atTcp (p1.take 50)).regs.segLen r.1 r.2) = true :=
  ⟨⟨rfl, rfl⟩, by decide⟩
theorem witness_TcpDataOffset : FrameIn (atTcp p3) p3 ∧ p3[(atTcp p3).regs.segOff + 12]? = some 0x80
    ∧ 13 ≤ (atTcp p3).regs.segLen := ⟨⟨rfl, rfl⟩, by decide, by decide⟩
theorem witness_TcpPayloadSlice : edgeRegs.tcpHlen ≤ edgeRegs.segLen := by decide
theorem witness_TcpStage : (atTcp p1).inFlight = true ∧ FrameIn (atTcp p1) p1
    ∧ (atTcp p1).regs.segOff + (atTcp p1).regs.segLen ≤ p1.length
    ∧ Ref.tcpCauseAt p1 34 20 = none ∧ Ref.tcpCauseAt p1 34 19 = some .tcpShort
    ∧ Ref.tcpCauseAt (with1 p1 46 0x40) 34 20 = some .tcpDoffLtMin
    ∧ Ref.tcpCauseAt (with1 p1 46 0x60) 34 20 = some .tcpDoffGtBuf :=
  ⟨rfl, ⟨rfl, rfl⟩, by decide, by decide, by decide, by decide, by decide⟩
theorem witness_PreviewBuilt : FrameIn ({ flight p9 with regs := { edgeRegs with payLen := 3, pvLen := 3 } } : State) p9
    ∧ ({ edgeRegs with payLen := 3, pvLen := 3 } : Regs).pvLen.toNat ≤ ({ edgeRegs with payLen := 3 } : Regs).payLen
    ∧ ({ edgeRegs with pvLen := 3 } : Regs).pvLen.toNat ≤ 64
    ∧ edgeRegs.payOff + ({ edgeRegs with pvLen := 3 } : Regs).pvLen.toNat = p9.length
    ∧ p9[54 + 2]? = some 0x42 := ⟨⟨rfl, rfl⟩, by decide, by decide, by decide, by decide⟩
theorem witness_RecordAssembled : edgeRegs.tcpHlen < 64 ∧ ({ edgeRegs with payLen := 65535 } : Regs).payLen < 65536
    ∧ ({ edgeRegs with pvLen := 64 } : Regs).pvLen.toNat ≤ 64 := by decide
theorem witness_RenderStage : FrameIn (atRender p9) p9 ∧ (atRender p9).inFlight = true
    ∧ (atRender p9).regs.payOff + (atRender p9).regs.payLen ≤ p9.length
    ∧ (atRender p9).regs.tcpHlen < 64 ∧ (atRender p9).regs.payLen < 65536
    ∧ p9[(atRender p9).regs.payOff + 2]? = some 0x42 :=
  ⟨⟨rfl, rfl⟩, by decide, by decide, by decide, by decide, by decide⟩
theorem witness_RenderTextLines : rP1.wf = true ∧ rP1.payloadLen = 0 ∧ rP9.wf = true ∧ rP9.payloadLen ≠ 0 := by decide
theorem witness_NextFrameTakesTheAnswer : State.reset.loop = .running ∧ State.reset.stage = .idle
    ∧ State.reset.inFlight = false ∧ State.reset.pending = none ∧ State.reset.answers = []
    ∧ ({ State.reset with answers := [.frame []] } : State).answers = .frame [] :: []
    ∧ ({ State.reset with answers := [.error ⟨1⟩] } : State).answers = .error ⟨1⟩ :: [] :=
  ⟨rfl, rfl, rfl, rfl, rfl, rfl, rfl⟩
/-- Sinks for each clause of a hand-over. -/
theorem witness_EmissionsAppend : State.reset.sink = []
    ∧ ({ State.reset with sink := [.takesAfter 0, .never] } : State).sink = .takesAfter 0 :: [.never]
    ∧ ({ State.reset with sink := [.takesAfter 1] } : State).sink = .takesAfter (0 + 1) :: []
    ∧ ({ State.reset with sink := [.never] } : State).sink = .never :: [] := ⟨rfl, rfl, rfl, rfl⟩
theorem witness_SinkHoldsTheBlock :
    ({ State.reset with op := some .emitReport, sink := [.never] } : State).sink.head? = some .never
    ∧ ({ State.reset with op := some .emitReport, sink := [.takesAfter 0] } : State).sink = .takesAfter 0 :: []
    ∧ ({ State.reset with op := some .emitReport, sink := [.takesAfter 2] } : State).resetIn = []
    ∧ ({ State.reset with op := some .emitReport } : State).sink = [] := ⟨rfl, rfl, rfl, rfl⟩
theorem witness_NoRequestOutOfTurn : ({ State.reset with loop := .halted } : State).loop = .halted
    ∧ (atIp p1).stage ≠ .idle ∧ (flight p1).inFlight = true
    ∧ ({ State.reset with pending := some rP1 } : State).pending ≠ none := by decide
theorem witness_CaptureErrorHalts : ({ State.reset with sourceError := some ⟨1⟩ } : State).sourceError = some ⟨1⟩ := rfl
theorem witness_RunFoldsTheAnswers : ∃ t u, exec .nextFrame { State.reset with answers := [.frame p7] } = .next t
    ∧ exec .framePass t = .next u := ⟨_, _, rfl, rfl⟩
theorem witness_RunCompletes :
    ({ State.reset with answers := [.frame p7, .error ⟨1⟩] } : State).loop = .running
    ∧ State.reset.stage = .idle ∧ State.reset.inFlight = false ∧ State.reset.pending = none
    ∧ SinkTurn.never ∉ ({ State.reset with sink := [.takesAfter 3] } : State).sink := by decide
/-- The first error ends the run's frames: nothing of P1 after it. -/
theorem test_run_reference : Ref.codesOf [.frame p7, .frame [], .error ⟨1⟩, .frame p1] = [0x91, 0x91, 0xC1]
    ∧ Ref.recordsOf [.frame p7, .error ⟨1⟩, .frame p1] = [] := by decide
theorem test_run_records : (Ref.recordsOf [.frame p1]).map PacketReport.seq = [16909060] := by decide
theorem witness_FramePassMeetsTheReference : FrameIn (flight p1) p1 ∧ FrameIn (flight []) []
    ∧ Ref.verdict p1 = .report ∧ Ref.verdict [] = .ethShort ∧ (flight p1).sink.head? ≠ some .never
    ∧ ({ flight p1 with sink := [.never] } : State).sink.head? = some .never :=
  ⟨⟨rfl, rfl⟩, ⟨rfl, rfl⟩, by decide, by decide, by decide, rfl⟩
theorem witness_ReferenceFrameRoundTrip : specP3.wf = true ∧ FrameIn (flight (encodeFrame specP3)) (encodeFrame specP3) :=
  ⟨by decide, ⟨rfl, rfl⟩⟩
theorem witness_PassDependsOnTheFrameAlone : (flight p1).fb = ({ flight p1 with status := 7 } : State).fb
    ∧ (flight p1).len = ({ flight p1 with status := 7 } : State).len := ⟨rfl, rfl⟩
theorem witness_IgnoredBytesChangeNothing :
    Ref.ignored p1 0 0xff ∧ Ref.ignored p1 14 0x65 ∧ Ref.ignored p1 15 0x01 ∧ Ref.ignored p1 22 0x00 ∧ Ref.ignored p1 25 0x00
    ∧ Ref.ignored p3 34 0x00 ∧ Ref.ignored p1 46 0x5f ∧ Ref.ignored p1 47 0xc2 ∧ Ref.ignored p1 53 0xff
    ∧ Ref.ignored p2 54 0xff ∧ FrameIn (flight (p1.set 0 0xff)) (p1.set 0 0xff) := by
  refine ⟨?_, ?_, ?_, ?_, ?_, ?_, ?_, ?_, ?_, ?_, ⟨rfl, rfl⟩⟩ <;> (unfold Ref.ignored; decide)
theorem witness_DeliveredRecordsAreInRange : ∃ t, FrameIn (flight p9) p9 ∧ exec .framePass (flight p9) = .next t
    ∧ ∃ r, t.reportOut ++ t.pending.toList = (flight p9).reportOut ++ [r] := ⟨_, ⟨rfl, rfl⟩, rfl, _, rfl⟩
/-- Each clause on a frame that a later stage drops, and the last on one that ends in a report. -/
theorem witness_SlicesNest :
    (∃ t, exec .ethParse (flight (p1.take 33)) = .next t ∧ t.stage = .ip ∧ Ref.verdict (p1.take 33) = .ipShort)
    ∧ ((atIp (p1.take 34)).regs.ipOff = 14
      ∧ (atIp (p1.take 34)).regs.ipOff + (atIp (p1.take 34)).regs.ipLen = (p1.take 34).length
      ∧ ∃ t, exec .ipv4Parse (atIp (p1.take 34)) = .next t ∧ t.stage = .tcp)
    ∧ ((atTcp p1).regs.segOff + (atTcp p1).regs.segLen ≤ p1.length ∧ (atTcp p1).regs.segLen ≤ 65515
      ∧ ∃ t, exec .tcpParse (atTcp p1) = .next t ∧ t.stage = .render) :=
  ⟨⟨_, rfl, rfl, by decide⟩, ⟨rfl, rfl, _, rfl, rfl⟩, ⟨by decide, by decide, _, rfl, rfl⟩⟩
/-- A clause of each kind, at its boundary: the frame one byte short, the slice one byte short, the slice ahead of the
read, a preview one byte beyond the frame or beyond the slice, a preview of 65 bytes. -/
theorem witness_ReadsOutOfBoundsFault : FrameIn (flight (p1.take 5)) (p1.take 5) ∧ (p1.take 5).length < 6
    ∧ OutOfSlice (p1.take 33) 14 20 30 4 ∧ OutOfSlice p1 14 19 30 4 ∧ OutOfSlice p1 15 19 14 1
    ∧ OutOfSlice (p1.take 49) 34 20 48 2 ∧ OutOfSlice p1 34 15 48 2
    ∧ FrameIn ({ flight p9 with regs := { edgeRegs with payLen := 9, pvLen := 4 } } : State) p9
    ∧ max 54 (min p9.length (54 + 9)) < 54 + 4 ∧ max 54 (min p9.length (54 + 2)) < 54 + 3 ∧ max 54 (min 0 2) < 54 + 1
    ∧ 64 < ({ edgeRegs with pvLen := 65, payOff := 0, payLen := 65 } : Regs).pvLen.toNat ∧ 0 + 65 ≤ p2.length := by
  refine ⟨⟨rfl, rfl⟩, by decide, ?_, ?_, ?_, ?_, ?_, ⟨rfl, rfl⟩, ?_, ?_, ?_, ?_, ?_⟩ <;> first | decide | (unfold OutOfSlice; decide)
theorem witness_UnstatedResultsAreFree : (flight p7).len < 14
    ∧ ({ edgeRegs with ipLen := 19 } : Regs).ipLen < edgeRegs.ipHlen ∧ edgeRegs.ipHlen ≤ edgeRegs.ipTotlen.toNat
    ∧ lowRegs.segLen < lowRegs.tcpHlen ∧ ({ edgeRegs with pvLen := 64, tcpHlen := 64 } : Regs).pvLen.toNat ≤ 64 := by decide

/-- A waiting block with answers to come meets the invariant. -/
theorem witness_invariant (as : List SourceAnswer) : Inv { State.reset with answers := as } :=
  ⟨rfl, Regs.unwritten_pvLen_le 0, fun h => (by cases h), fun _ h => (by cases h), fun h => (by cases h),
    fun h => absurd rfl h, ⟨rfl, rfl⟩⟩
/-- A block with a frame in flight and the Ethernet stage next meets the invariant. -/
theorem witness_invariant_in_a_pass (bs : List Byte) : Inv { flight bs with op := some .ethParse } :=
  ⟨Memory.wf_ofBytes bs, Regs.unwritten_pvLen_le 0, fun _ => ⟨bs, rfl, rfl⟩, fun _ h => (by cases h),
    fun h => (by cases h), fun h => absurd rfl h, ⟨rfl, rfl⟩⟩
theorem witness_StepKeepsInvariant : Inv { State.reset with answers := [.frame p1] }
    ∧ ∃ t, step { State.reset with answers := [.frame p1] } = .next t := ⟨witness_invariant _, _, rfl⟩
theorem witness_NoFrameStopsTheBlock : Inv { flight p4 with op := some .ethParse } := witness_invariant_in_a_pass p4
theorem witness_StageStepsMakeAPass : Inv { flight p1 with op := some .ethParse }
    ∧ ({ flight p1 with op := some .ethParse } : State).resetIn = [] := ⟨witness_invariant_in_a_pass p1, rfl⟩
theorem witness_StepsMakeTheRun : Inv { State.reset with answers := [.frame p1, .frame p6, .error ⟨1⟩] }
    ∧ State.reset.op = none := ⟨witness_invariant _, rfl⟩
theorem witness_HaltedStaysHalted : ∃ s : State, Inv s ∧ s.loop = .halted ∧ s.resetIn = [] :=
  ⟨{ State.reset with loop := .halted, diagOut := [0xC1] },
    ⟨rfl, Regs.unwritten_pvLen_le 0, fun h => (by cases h), by decide, fun _ => rfl, fun h => absurd rfl h,
      ⟨rfl, rfl⟩⟩, rfl, rfl⟩
theorem witness_OnlyCaptureErrorsHalt : ∃ t, exec .nextFrame { State.reset with answers := [.error ⟨1⟩] } = .next t
    ∧ t.loop ≠ State.reset.loop := ⟨_, rfl, by decide⟩
theorem witness_ReportsComeFromPassesOnly : ∃ t, exec .ethDst (flight p1) = .next t
    ∧ Instr.ethDst ≠ .emitReport ∧ Instr.ethDst ≠ .framePass ∧ Instr.ethDst ≠ .run :=
  ⟨_, rfl, by decide, by decide, by decide⟩
theorem witness_ChannelsOnlyGrow : ∃ t, step { flight p7 with op := some .ethParse } = .next t
    ∧ ({ flight p7 with op := some .ethParse } : State).op ≠ some .run := ⟨_, rfl, by decide⟩
theorem witness_NothingWritesTheFrame : (∃ t, exec .ethDst (flight p1) = .next t ∧ t.fb = (flight p1).fb)
    ∧ ∃ t, exec .ethParse (flight p7) = .next t ∧ t.fb = [] := ⟨⟨_, rfl, rfl⟩, ⟨_, rfl, rfl⟩⟩
theorem witness_OnlyPreviewBuildWritesThePreview : ∃ t, exec .tcpParse (atTcp p1) = .next t ∧ t.pv = (atTcp p1).pv :=
  ⟨_, rfl, rfl⟩
theorem witness_AnswersAreUsedInOrder : ∃ t, exec .nextFrame { State.reset with answers := [.frame p7] } = .next t
    ∧ t.answers = [] := ⟨_, rfl, rfl⟩
theorem witness_OperationsKeepMemoryForm : ∃ t, exec .render (atRender p9) = .next t
    ∧ Memory.wf (atRender p9).fb = true ∧ (atRender p1).regs.payLen = 0
    ∧ ({ edgeRegs with pvLen := 64 } : Regs).pvLen.toNat ≤ 64 := ⟨_, rfl, by decide, by decide, by decide⟩

end Sys2Proof.Tests
end

/-! SUPPORT. What a stage operation can change, and the machine's steps through one pass (44_frame_pass_and_host.md
R230): each stage is one step, and the record waits its turns before the status ends the pass. -/

namespace Sys2Proof.Machine

/-! ## What a stage operation writes -/

/-- `t` is `s` with at most what a stage writes changed: `STAGE`, the stage registers, `PV` and `STATUS`. The frame, the
channels, the free inputs and the sequence's place are as they were. -/
def StageWrites (s t : State) : Prop :=
  ∃ g r p c, t = { s with stage := g, regs := r, pv := p, status := c }

theorem StageWrites.refl (s : State) : StageWrites s s := ⟨_, _, _, _, rfl⟩

theorem StageWrites.trans {s t u : State} (hst : StageWrites s t) (htu : StageWrites t u) : StageWrites s u := by
  obtain ⟨_, _, _, _, rfl⟩ := hst
  obtain ⟨_, _, _, _, rfl⟩ := htu
  exact ⟨_, _, _, _, rfl⟩

theorem StageWrites.putRegs (s : State) (r : Regs) : StageWrites s (s.putRegs r) := ⟨_, _, _, _, rfl⟩
theorem StageWrites.putStage (s : State) (g : Stage) : StageWrites s (s.putStage g) := ⟨_, _, _, _, rfl⟩
theorem StageWrites.putStatus (s : State) (c : Byte) : StageWrites s (s.putStatus c) := ⟨_, _, _, _, rfl⟩

theorem StageWrites.op_eq {s t : State} (h : StageWrites s t) : t.op = s.op := by
  obtain ⟨_, _, _, _, rfl⟩ := h; rfl
theorem StageWrites.resetIn_eq {s t : State} (h : StageWrites s t) : t.resetIn = s.resetIn := by
  obtain ⟨_, _, _, _, rfl⟩ := h; rfl
theorem StageWrites.sink_eq {s t : State} (h : StageWrites s t) : t.sink = s.sink := by
  obtain ⟨_, _, _, _, rfl⟩ := h; rfl

/-- Whatever state a stage operation's answer carries, it differs from `s` only in what a stage writes. -/
def Flow.Within (s : State) : Flow → Prop
  | .ok t | .raised _ t => StageWrites s t
  | .fault _ => True

theorem Flow.Within.of_writes {s t : State} {r : Flow} (hst : StageWrites s t) (hr : r.Within t) : r.Within s := by
  cases r with
  | ok u => exact hst.trans hr
  | raised c u => exact hst.trans hr
  | fault f => trivial

theorem Flow.Within.andThen {s : State} {r : Flow} {k : State → Flow} (hr : r.Within s)
    (hk : ∀ t, (k t).Within t) : (r.andThen k).Within s := by
  cases r with
  | ok t => exact .of_writes hr (hk t)
  | raised c t => exact hr
  | fault f => trivial

theorem runOps_within {fs : List (State → Flow)} (h : ∀ f ∈ fs, ∀ s, (f s).Within s) (s : State) :
    (runOps fs s).Within s := by
  induction fs generalizing s with
  | nil => exact .refl s
  | cons f fs ih =>
    obtain ⟨hf, hfs⟩ := List.forall_mem_cons.1 h
    exact (hf s).andThen (ih hfs)

theorem raiseIf_within (bad : Bool) (c : Cause) (s : State) : (raiseIf bad c s).Within s := by
  cases bad <;> exact .refl s

theorem readInto_within (off len addr : Nat) (w : Width) (put : Regs → Nat → Regs) (s : State) :
    (readInto off len addr w put s).Within s := by
  obtain ⟨v, h⟩ | h := readInto_cases off len addr w put s
  · rw [h]; exact .putRegs s _
  · rw [h]; trivial

theorem buildOne_within (i : Nat) (s : State) : (buildOne i s).Within s := by
  unfold buildOne
  split
  · next v _ =>
    obtain ⟨_, h⟩ | ⟨_, h⟩ := memWrite_cases s i (previewChar (BitVec.ofNat 8 v))
    · rw [h]; exact ⟨_, _, _, _, rfl⟩
    · rw [h]; trivial
  · trivial

theorem buildFrom_within (n i : Nat) (s : State) : (buildFrom n i s).Within s := by
  induction n generalizing i s with
  | zero => exact .refl s
  | succ n ih => exact (buildOne_within i s).andThen (ih (i + 1))

theorem opReportAssemble_within (s : State) : (opReportAssemble s).Within s := by
  unfold opReportAssemble
  split
  · exact .putRegs s _
  · trivial

theorem readEth_within (f : FieldAt) (put : Regs → Nat → Regs) (s : State) : (readEth f put s).Within s :=
  readInto_within _ _ _ _ _ s
theorem readIp_within (f : FieldAt) (put : Regs → Nat → Regs) (s : State) : (readIp f put s).Within s :=
  readInto_within _ _ _ _ _ s
theorem readTcp_within (f : FieldAt) (put : Regs → Nat → Regs) (s : State) : (readTcp f put s).Within s :=
  readInto_within _ _ _ _ _ s

theorem opEthParse_within (s : State) : (opEthParse s).Within s := by
  refine .of_writes (.putStage s .eth) (runOps_within ?_ _)
  simp only [List.forall_mem_cons, List.not_mem_nil, false_imp_iff, implies_true, and_true]
  exact ⟨fun s => raiseIf_within _ _ s, readEth_within _ _, readEth_within _ _, readEth_within _ _, fun s => .putRegs s _,
    fun s => (raiseIf_within _ _ s).andThen fun t => .putStage t _⟩

theorem opIpv4Parse_within (s : State) : (opIpv4Parse s).Within s := by
  refine runOps_within ?_ s
  simp only [List.forall_mem_cons, List.not_mem_nil, false_imp_iff, implies_true, and_true]
  exact ⟨fun s => raiseIf_within _ _ s, readIp_within _ _,
    fun s => (raiseIf_within _ _ s).andThen fun t => .putRegs t _,
    fun s => raiseIf_within _ _ s, readIp_within _ _, readIp_within _ _, readIp_within _ _, readIp_within _ _,
    fun s => (raiseIf_within _ _ s).andThen fun t => .putRegs t _,
    fun s => (raiseIf_within _ _ s).andThen fun t => .putStage t _⟩

theorem opTcpParse_within (s : State) : (opTcpParse s).Within s := by
  refine runOps_within ?_ s
  simp only [List.forall_mem_cons, List.not_mem_nil, false_imp_iff, implies_true, and_true]
  exact ⟨fun s => raiseIf_within _ _ s, readTcp_within _ _, readTcp_within _ _, readTcp_within _ _, readTcp_within _ _,
    readTcp_within _ _, fun s => raiseIf_within _ _ s, fun s => raiseIf_within _ _ s, readTcp_within _ _,
    readTcp_within _ _, fun s => .putRegs s _, fun s => (StageWrites.putRegs s _).trans (.putStage _ _)⟩

theorem opRender_within (s : State) : (opRender s).Within s := by
  refine Flow.Within.andThen (runOps_within ?_ s) fun t => .putStatus t _
  simp only [List.forall_mem_cons, List.not_mem_nil, false_imp_iff, implies_true, and_true]
  exact ⟨fun s => .putRegs s _, fun s => buildFrom_within _ _ s, opReportAssemble_within⟩

/-! ## How a stage ends -/

/-- Only an answer that goes on lets the operation after it go on. -/
theorem Flow.andThen_eq_ok {r : Flow} {k : State → Flow} {t : State} (h : r.andThen k = .ok t) :
    ∃ u, r = .ok u ∧ k u = .ok t := by
  cases r with
  | ok u => exact ⟨u, rfl, h⟩
  | raised c u => cases h
  | fault f => cases h

@[simp] theorem Flow.andThen_ok (r : Flow) : r.andThen .ok = r := by cases r <;> rfl

/-- A sequence that goes on has made its last operation, which went on. -/
theorem runOps_concat_eq_ok {fs : List (State → Flow)} {g : State → Flow} {s t : State}
    (h : runOps (fs ++ [g]) s = .ok t) : ∃ u, g u = .ok t := by
  rw [runOps_append] at h
  obtain ⟨u, -, hu⟩ := Flow.andThen_eq_ok h
  obtain ⟨v, hv, hvt⟩ := Flow.andThen_eq_ok hu
  cases hvt
  exact ⟨u, hv⟩

/-- A frame the Ethernet stage passes goes to the IPv4 stage (40_ethernet_classifier.md R106). -/
theorem opEthParse_stage {s t : State} (h : opEthParse s = .ok t) : t.stage = .ip := by
  obtain ⟨u, hu⟩ := runOps_concat_eq_ok (fs := [opEthLenchk, opEthDst, opEthSrc, opEthType, opEthRest]) h
  obtain ⟨v, -, hv⟩ := Flow.andThen_eq_ok hu
  cases hv; rfl

/-- A frame the IPv4 stage passes goes to the TCP stage (41_ipv4_dissector.md R130). -/
theorem opIpv4Parse_stage {s t : State} (h : opIpv4Parse s = .ok t) : t.stage = .tcp := by
  obtain ⟨u, hu⟩ := runOps_concat_eq_ok
    (fs := [opIpLenchk, opIpVihl, opIpHlen, opIpHlenchk, opIpTotlen, opIpProto, opIpSrc, opIpDst, opIpSlice]) h
  obtain ⟨v, -, hv⟩ := Flow.andThen_eq_ok hu
  cases hv; rfl

/-- A frame the TCP stage passes goes to the report stage (42_tcp_dissector.md R162). -/
theorem opTcpParse_stage {s t : State} (h : opTcpParse s = .ok t) : t.stage = .render := by
  obtain ⟨u, hu⟩ := runOps_concat_eq_ok
    (fs := [opTcpLenchk, opTcpSport, opTcpDport, opTcpSeq, opTcpAck, opTcpDoff, opTcpDoffmin, opTcpHlenchk, opTcpFlags,
      opTcpWin, opTcpFlagset]) h
  cases hu; rfl

/-- A rendered frame has status 0x00 (43_report_renderer.md R190). -/
theorem opRender_status {s t : State} (h : opRender s = .ok t) : t.status = Cause.report.code := by
  obtain ⟨u, -, hu⟩ := Flow.andThen_eq_ok h
  cases hu; rfl

/-- The answer is no raise. -/
def Flow.NoRaise : Flow → Prop
  | .raised _ _ => False
  | .ok _ | .fault _ => True

theorem Flow.NoRaise.andThen {r : Flow} {k : State → Flow} (hr : r.NoRaise) (hk : ∀ t, (k t).NoRaise) :
    (r.andThen k).NoRaise := by
  cases r with
  | ok t => exact hk t
  | raised c t => exact hr
  | fault f => trivial

theorem buildOne_noRaise (i : Nat) (s : State) : (buildOne i s).NoRaise := by
  unfold buildOne
  split
  · next v _ =>
    obtain ⟨_, h⟩ | ⟨_, h⟩ := memWrite_cases s i (previewChar (BitVec.ofNat 8 v)) <;> rw [h] <;> trivial
  · trivial

theorem buildFrom_noRaise (n i : Nat) (s : State) : (buildFrom n i s).NoRaise := by
  induction n generalizing i s with
  | zero => trivial
  | succ n ih => exact (buildOne_noRaise i s).andThen (ih (i + 1))

theorem opReportAssemble_noRaise (s : State) : (opReportAssemble s).NoRaise := by
  unfold opReportAssemble
  split <;> trivial

/-- The report stage raises nothing (43_report_renderer.md R190). -/
theorem opRender_noRaise (s : State) : (opRender s).NoRaise := by
  refine Flow.NoRaise.andThen (r := runOps _ s) ?_ fun _ => trivial
  refine Flow.NoRaise.andThen (r := opPreviewLen s) trivial fun t => ?_
  refine Flow.NoRaise.andThen (r := opPreviewBuild t) (buildFrom_noRaise _ _ t) fun u => ?_
  exact Flow.NoRaise.andThen (opReportAssemble_noRaise u) fun _ => trivial

/-! ## Runs of the machine -/

/-- At most `n` steps from `s` lead to the outcome `o`. -/
def ComesTo (n : Nat) (s : State) (o : Host.Outcome State Fault Refusal) : Prop :=
  ∃ k, k ≤ n ∧ Host.Core.run core k s = o

theorem ComesTo.here (n : Nat) (s : State) : ComesTo n s (.next s) := ⟨0, Nat.zero_le n, rfl⟩

theorem ComesTo.mono {m n : Nat} {s : State} {o : Host.Outcome State Fault Refusal} (h : ComesTo m s o) (hmn : m ≤ n) :
    ComesTo n s o := by
  obtain ⟨k, hk, hrun⟩ := h
  exact ⟨k, hk.trans hmn, hrun⟩

theorem ComesTo.step_next {n : Nat} {s t : State} {o : Host.Outcome State Fault Refusal} (hstep : step s = .next t)
    (h : ComesTo n t o) : ComesTo (n + 1) s o := by
  obtain ⟨k, hk, hrun⟩ := h
  refine ⟨k + 1, Nat.succ_le_succ hk, ?_⟩
  rw [← hrun]
  simp [Host.Core.run, core, hstep]

theorem ComesTo.step_fault {n : Nat} {s : State} {f : Fault} (hstep : step s = .fault f) :
    ComesTo (n + 1) s (.fault f) :=
  ⟨1, Nat.le_add_left 1 n, by simp [Host.Core.run, core, hstep]⟩

/-! ## The wired sequence -/

/-- The turns the sink lets the next record wait (R286). -/
def State.sinkWait (s : State) : Nat := (s.sink.head?.map SinkTurn.wait).getD 0

theorem StageWrites.sinkWait_eq {s t : State} (h : StageWrites s t) : t.sinkWait = s.sinkWait := by
  rw [State.sinkWait, State.sinkWait, h.sink_eq]

/-- The sequence has come to the operation `i`. -/
def State.atOp (s : State) (i : Instr) : State := { s with op := some i }

theorem State.op_none_self {s : State} (hop : s.op = none) : { s with op := none } = s := by rw [← hop]

theorem State.atOp_op_none {s : State} (hop : s.op = none) (i : Instr) : { s.atOp i with op := none } = s :=
  State.op_none_self hop

theorem State.atOp_self {s : State} {i : Instr} (hop : s.op = some i) : State.atOp { s with op := none } i = s := by
  rw [State.atOp, ← hop]

/-- With no reset planned, a step is a step of the sequence (R280). -/
theorem step_eq_stepOp {s : State} (hreset : s.resetIn = []) : step s = stepOp s := by
  simp only [step, readReset, hreset]

/-- With no reset planned, a step makes the operation the sequence has come to, and goes on from there. -/
theorem step_atOp_next {s t : State} {i : Instr} (hop : s.op = none) (hreset : s.resetIn = [])
    (hexec : exec i s = .next t) : step (s.atOp i) = .next (sequence i t) := by
  rw [step_eq_stepOp (s := s.atOp i) hreset, stepOp, show nextOp (s.atOp i) = some i from rfl]
  simp only [State.atOp_op_none hop, hexec]

theorem step_atOp_fault {s : State} {i : Instr} {f : Fault} (hop : s.op = none) (hreset : s.resetIn = [])
    (hexec : exec i s = .fault f) : step (s.atOp i) = .fault f := by
  rw [step_eq_stepOp (s := s.atOp i) hreset, stepOp, show nextOp (s.atOp i) = some i from rfl]
  simp only [State.atOp_op_none hop, hexec]

theorem sequence_render {t : State} (h : t.status = Cause.report.code) : sequence .render t = t.atOp .emitReport := by
  simp [sequence, State.atOp, h]

theorem sequence_emitReport_taken {t : State} (h : t.pending = none) :
    sequence .emitReport t = t.atOp .emitDiag := by
  simp [sequence, State.atOp, h]

theorem sequence_emitReport_pending {t : State} {r : PacketReport} (h : t.pending = some r) :
    sequence .emitReport t = t.atOp .emitReport := by
  simp [sequence, State.atOp, h]

/-! ## The record and the status, turn by turn -/

/-- The record taken at once: one step for it and one for the status end the pass (R230). -/
theorem emitReport_comesTo_of_taken {s : State} (hop : s.op = none) (hreset : s.resetIn = [])
    (htakes : s.sink.head? ≠ some .never) (htaken : s.emitReport = { s.deliver with sink := s.sink.tail }) :
    ComesTo 2 (s.atOp .emitReport) (.next (finishPass s)) := by
  have hpending : s.emitReport.pending = none := by rw [htaken]; rfl
  refine .step_next (step_atOp_next hop hreset rfl) ?_
  rw [sequence_emitReport_taken hpending]
  refine .step_next (step_atOp_next (by simpa using hop) (by simpa using hreset) rfl) ?_
  have hend : sequence .emitDiag s.emitReport.emitDiag = finishPass s := by
    rw [finishPass_of_takes htakes, htaken]
    simp [sequence, State.endPass, State.emitDiag, State.deliver, hop]
  rw [hend]
  exact .here 0 _

/-- A turn of waiting does not change what the pass comes to (R286). -/
theorem finishPass_emitReport_of_waits {n : Nat} {rest : List SinkTurn} {s : State}
    (hsink : s.sink = .takesAfter (n + 1) :: rest) : finishPass s.emitReport = finishPass s := by
  rw [State.emitReport_of_waits hsink, finishPass_of_takes (by simp), finishPass_of_takes (s := s) (by simp [hsink]),
    hsink]
  rfl

/-- A sink that takes the record after `n` further turns: each is one step of waiting (R286). -/
theorem emitReport_comesTo_of_takes {n : Nat} {rest : List SinkTurn} {s : State} (hop : s.op = none)
    (hreset : s.resetIn = []) (hsink : s.sink = .takesAfter n :: rest) :
    ComesTo (n + 2) (s.atOp .emitReport) (.next (finishPass s)) := by
  induction n generalizing s with
  | zero =>
    refine (emitReport_comesTo_of_taken hop hreset (by simp [hsink]) ?_).mono (by omega)
    rw [State.emitReport_of_takes hsink, hsink, List.tail_cons]
  | succ n ih =>
    have hwait := State.emitReport_of_waits hsink
    have hpending : s.emitReport.pending = some s.regs.report := by rw [hwait]; rfl
    refine .step_next (step_atOp_next hop hreset rfl) ?_
    rw [sequence_emitReport_pending hpending, ← finishPass_emitReport_of_waits hsink]
    exact ih (by simpa using hop) (by simpa using hreset) (by rw [hwait])

/-- A sink that never takes the record: the block has come to wait in `EMIT_REPORT` after one step (R286, U7). -/
theorem emitReport_comesTo_of_never {s : State} (hop : s.op = none) (hreset : s.resetIn = [])
    {rest : List SinkTurn} (hsink : s.sink = .never :: rest) :
    ComesTo 1 (s.atOp .emitReport) (.next (finishPass s)) := by
  refine .step_next (step_atOp_next hop hreset rfl) ?_
  rw [State.emitReport_of_never hsink, sequence_emitReport_pending (State.offer_pending s),
    finishPass_of_never (by simp [hsink])]
  exact .here 0 _

/-- The record and the status of a pass, turn by turn, come to the pass's end (R230, R286). -/
theorem emitReport_comesTo {s : State} (hop : s.op = none) (hreset : s.resetIn = []) :
    ComesTo (s.sinkWait + 2) (s.atOp .emitReport) (.next (finishPass s)) := by
  rcases hsink : s.sink with _ | ⟨turn, rest⟩
  case nil =>
    refine (emitReport_comesTo_of_taken hop hreset (by simp [hsink]) ?_).mono (by omega)
    rw [State.emitReport_of_ready hsink, hsink, List.tail_nil, ← hsink]
    rfl
  case cons =>
    cases turn with
    | takesAfter n =>
      have hwait : s.sinkWait = n := by simp [State.sinkWait, hsink, SinkTurn.wait]
      rw [hwait]
      exact emitReport_comesTo_of_takes hop hreset hsink
    | never => exact (emitReport_comesTo_of_never hop hreset hsink).mono (by omega)

/-! ## The stages, one step each -/

/-- The outcome of a pass, by what its stages answer (R230). -/
def passOutcome : Flow → Host.Outcome State Fault Refusal
  | .ok t => .next (finishPass t)
  | .raised c t => .next (takeRaise c t)
  | .fault f => .fault f

theorem exec_framePass (s : State) : exec .framePass s = passOutcome (opStages s) := by
  show execFramePass s = _
  unfold execFramePass
  cases opStages s <;> rfl

/-- One parsing stage as one step, with the rest of the pass after it: where the stage goes on, `j` comes next; a raise
or a fault ends the pass in this step as it does in `FRAME_PASS`. -/
theorem stage_comesTo {i j : Instr} {f rest : State → Flow} {s : State} {n : Nat} (hop : s.op = none)
    (hreset : s.resetIn = []) (hexec : exec i s = settle (f s))
    (hseq : ∀ t, sequence i t = { t with op := stageOp t.stage }) (hwithin : (f s).Within s)
    (hstage : ∀ t, f s = .ok t → stageOp t.stage = some j)
    (hrest : ∀ t : State, t.op = none → t.resetIn = [] → ComesTo (t.sinkWait + n) (t.atOp j) (passOutcome (rest t))) :
    ComesTo (s.sinkWait + n + 1) (s.atOp i) (passOutcome ((f s).andThen rest)) := by
  cases hf : f s with
  | ok t =>
    rw [hf] at hexec hwithin
    have hnext : sequence i t = t.atOp j := by rw [hseq, hstage t hf]; rfl
    refine .step_next (step_atOp_next hop hreset hexec) ?_
    rw [hnext, ← hwithin.sinkWait_eq]
    exact hrest t (hwithin.op_eq.trans hop) (hwithin.resetIn_eq.trans hreset)
  | raised c t =>
    rw [hf] at hexec hwithin
    have hover : sequence i (takeRaise c t) = takeRaise c t :=
      (hseq _).trans (State.op_none_self (hwithin.op_eq.trans hop))
    refine .step_next (step_atOp_next hop hreset hexec) ?_
    rw [hover]
    exact .here _ _
  | fault g =>
    rw [hf] at hexec
    exact .step_fault (step_atOp_fault hop hreset hexec)

/-- The report stage, the record and the status come to the end of the pass. -/
theorem render_comesTo {s : State} (hop : s.op = none) (hreset : s.resetIn = []) :
    ComesTo (s.sinkWait + 3) (s.atOp .render) (passOutcome (opRender s)) := by
  have hexec : exec .render s = settle (opRender s) := rfl
  have hwithin := opRender_within s
  have hnoRaise := opRender_noRaise s
  cases hf : opRender s with
  | ok t =>
    rw [hf] at hexec hwithin
    refine .step_next (step_atOp_next hop hreset hexec) ?_
    rw [sequence_render (opRender_status hf), ← hwithin.sinkWait_eq]
    exact emitReport_comesTo (hwithin.op_eq.trans hop) (hwithin.resetIn_eq.trans hreset)
  | raised c t => rw [hf] at hnoRaise; exact hnoRaise.elim
  | fault g =>
    rw [hf] at hexec
    exact .step_fault (step_atOp_fault hop hreset hexec)

theorem tcpParse_comesTo {s : State} (hop : s.op = none) (hreset : s.resetIn = []) :
    ComesTo (s.sinkWait + 4) (s.atOp .tcpParse) (passOutcome (runOps [opTcpParse, opRender] s)) := by
  refine stage_comesTo (j := .render) hop hreset rfl (fun _ => rfl) (opTcpParse_within s) (fun t ht => ?_)
    fun t ht hr => ?_
  · rw [opTcpParse_stage ht]; rfl
  · rw [runOps_cons, show runOps [] = Flow.ok from rfl, Flow.andThen_ok]
    exact render_comesTo ht hr

theorem ipv4Parse_comesTo {s : State} (hop : s.op = none) (hreset : s.resetIn = []) :
    ComesTo (s.sinkWait + 5) (s.atOp .ipv4Parse) (passOutcome (runOps [opIpv4Parse, opTcpParse, opRender] s)) := by
  refine stage_comesTo hop hreset rfl (fun _ => rfl) (opIpv4Parse_within s) (fun t ht => ?_)
    fun t => tcpParse_comesTo
  rw [opIpv4Parse_stage ht]; rfl

/-- The steps of a pass from its first stage on come to what `FRAME_PASS` does (R4, R230). -/
theorem ethParse_comesTo {s : State} (hop : s.op = none) (hreset : s.resetIn = []) :
    ComesTo (s.sinkWait + 6) (s.atOp .ethParse) (exec .framePass s) := by
  rw [exec_framePass]
  refine stage_comesTo hop hreset rfl (fun _ => rfl) (opEthParse_within s) (fun t ht => ?_)
    fun t => ipv4Parse_comesTo
  rw [opEthParse_stage ht]; rfl

/-- Settles O50: stage by stage, with the report's turns by induction on how long the sink waits. The steps and
`FRAME_PASS` agree in every state with no reset planned, so the invariant is not called upon. -/
theorem stageStepsMakeAPass : Obligations.StageStepsMakeAPass := by
  unfold Obligations.StageStepsMakeAPass
  intro s _ hop hreset
  obtain ⟨k, hk, hrun⟩ := ethParse_comesTo (s := { s with op := none }) rfl hreset
  rw [State.atOp_self hop] at hrun
  exact ⟨k, Nat.add_comm _ 6 ▸ hk, hrun⟩

end Sys2Proof.Machine

/-! SUPPORT. What the four stages leave of a frame they pass (20_memory.md R53): the slice registers followed through each
stage's operations, assertion by assertion. From that, the invariant of a run is kept by every step (10_state.md R13), and
the record of a pass is within the ranges of R21. -/

namespace Sys2Proof.Machine

/-! ## Assertions about operations -/

/-- If the answer goes on, its state meets `Q`. -/
def Flow.Ends (Q : State → Prop) : Flow → Prop
  | .ok t => Q t
  | .raised _ _ | .fault _ => True

theorem Flow.Ends.of_ok {Q : State → Prop} {r : Flow} {t : State} (h : r.Ends Q) (hr : r = .ok t) : Q t := by
  subst hr; exact h

theorem Flow.Ends.mono {P Q : State → Prop} {r : Flow} (h : r.Ends P) (hPQ : ∀ t, P t → Q t) : r.Ends Q := by
  cases r with
  | ok t => exact hPQ t h
  | raised c t => trivial
  | fault f => trivial

/-- From a state that meets `P`, the operation `f` goes on only to a state that meets `Q`. -/
def Leads (P : State → Prop) (f : State → Flow) (Q : State → Prop) : Prop := ∀ s, P s → (f s).Ends Q

section
variable {P Q R : State → Prop}

theorem Leads.andThen {f k : State → Flow} (hf : Leads P f R) (hk : Leads R k Q) :
    Leads P (fun s => (f s).andThen k) Q := by
  intro s hs
  have hr := hf s hs
  show ((f s).andThen k).Ends Q
  cases h : f s with
  | ok t => exact hk t (hr.of_ok h)
  | raised c t => trivial
  | fault e => trivial

theorem Leads.nil : Leads P (runOps []) P := fun _ hs => hs

theorem Leads.cons {f : State → Flow} {fs : List (State → Flow)} (hf : Leads P f R) (hfs : Leads R (runOps fs) Q) :
    Leads P (runOps (f :: fs)) Q := hf.andThen hfs

theorem Leads.ok {g : State → State} (h : ∀ s, P s → Q (g s)) : Leads P (fun s => .ok (g s)) Q := h

/-- A test that raises goes on from a state it found good, and changes nothing. -/
theorem Leads.raiseIf {bad : State → Bool} {c : Cause} (h : ∀ s, P s → bad s = false → Q s) :
    Leads P (fun s => Machine.raiseIf (bad s) c s) Q := by
  intro s hs
  show (Machine.raiseIf (bad s) c s).Ends Q
  cases hbad : bad s with
  | true => trivial
  | false => exact h s hs hbad

theorem Leads.raiseIf_keeps {bad : State → Bool} {c : Cause} : Leads P (fun s => Machine.raiseIf (bad s) c s) P :=
  .raiseIf fun _ h _ => h

/-- A test that raises on a length below a bound goes on with the bound met. -/
theorem Leads.raiseIf_lt {m n : State → Nat} {c : Cause} (h : ∀ s, P s → n s ≤ m s → Q s) :
    Leads P (fun s => Machine.raiseIf (m s < n s) c s) Q :=
  .raiseIf fun s hs hbad => h s hs (not_lt.1 (of_decide_eq_false hbad))

theorem readInto_ends {off len addr : Nat} {w : Width} {put : Regs → Nat → Regs} {s : State}
    (h : ∀ v, Q (s.putRegs (put s.regs v))) : (readInto off len addr w put s).Ends Q := by
  obtain ⟨v, hv⟩ | hv := readInto_cases off len addr w put s <;> rw [hv]
  · exact h v
  · trivial

/-- A field extraction keeps whatever the register it writes does not bear on. -/
theorem Leads.readEth {f : FieldAt} {put : Regs → Nat → Regs} (h : ∀ s v, P s → P (s.putRegs (put s.regs v))) :
    Leads P (readEth f put) P := fun s hs => readInto_ends fun v => h s v hs

theorem Leads.readIp {f : FieldAt} {put : Regs → Nat → Regs} (h : ∀ s v, P s → P (s.putRegs (put s.regs v))) :
    Leads P (readIp f put) P := fun s hs => readInto_ends fun v => h s v hs

theorem Leads.readTcp {f : FieldAt} {put : Regs → Nat → Regs} (h : ∀ s v, P s → P (s.putRegs (put s.regs v))) :
    Leads P (readTcp f put) P := fun s hs => readInto_ends fun v => h s v hs

end

/-! ## The Ethernet stage -/

/-- `t` is on the frame `s` is on, with the same `PV_LEN`. -/
def EthHanded (s t : State) : Prop := t.len = s.len ∧ t.regs.pvLen = s.regs.pvLen

/-- What the Ethernet stage leaves of a frame it passes: the slice behind the header (R101, R105). -/
structure EthPassed (s t : State) : Prop where
  header_le : 14 ≤ s.len
  ipOff_eq : t.regs.ipOff = 14
  ipLen_eq : t.regs.ipLen = s.len - 14
  pvLen_eq : t.regs.pvLen = s.regs.pvLen

theorem opEthRest_leads (s : State) : Leads (fun t => EthHanded s t ∧ 14 ≤ t.len) opEthRest (EthPassed s) := by
  rintro t ⟨⟨hlen, hpvLen⟩, hheader⟩
  exact ⟨hlen ▸ hheader, rfl, hlen ▸ guardedSub_of_le _ hheader, hpvLen⟩

theorem opEthParse_passed (s : State) : (opEthParse s).Ends (EthPassed s) := by
  suffices hrun : Leads (EthHanded s) (runOps [opEthLenchk, opEthDst, opEthSrc, opEthType, opEthRest, opEthDispatch])
      (EthPassed s) from hrun _ ⟨rfl, rfl⟩
  refine .cons (R := fun t => EthHanded s t ∧ 14 ≤ t.len) (.raiseIf_lt fun _ h hlen => ⟨h, hlen⟩) ?_
  refine .cons (.readEth fun _ _ h => h) ?_
  refine .cons (.readEth fun _ _ h => h) ?_
  refine .cons (.readEth fun _ _ h => h) ?_
  refine .cons (opEthRest_leads s) ?_
  exact .cons (.andThen .raiseIf_keeps (.ok fun _ h => { h with })) .nil

/-! ## The IPv4 stage -/

/-- `t` is on the packet `s` is on, with the same `PV_LEN`. -/
def IpHanded (s t : State) : Prop := t.regs.ipLen = s.regs.ipLen ∧ t.regs.pvLen = s.regs.pvLen

/-- What the IPv4 stage leaves of a packet it passes: the slice behind the header, within the declared length
(R123, R124, R129). -/
structure IpPassed (s t : State) : Prop where
  header_ge : 20 ≤ t.regs.ipHlen
  header_le : t.regs.ipHlen ≤ s.regs.ipLen
  segOff_eq : t.regs.segOff = 14 + t.regs.ipHlen
  segLen_le : t.regs.segLen ≤ s.regs.ipLen - t.regs.ipHlen
  segLen_le_total : t.regs.segLen ≤ t.regs.ipTotlen.toNat - t.regs.ipHlen
  pvLen_eq : t.regs.pvLen = s.regs.pvLen

theorem opIpHlen_leads (s : State) :
    Leads (IpHanded s) opIpHlen (fun t => IpHanded s t ∧ 20 ≤ t.regs.ipHlen) :=
  .andThen (R := fun t => IpHanded s t ∧ 5 ≤ ihl t) (.raiseIf_lt fun _ h hihl => ⟨h, hihl⟩)
    (.ok fun _ h => ⟨h.1, Nat.mul_le_mul_right 4 h.2⟩)

theorem opIpSlice_leads (s : State) :
    Leads (fun t => IpHanded s t ∧ 20 ≤ t.regs.ipHlen ∧ t.regs.ipHlen ≤ t.regs.ipLen) opIpSlice (IpPassed s) := by
  refine .andThen .raiseIf_keeps (.ok ?_)
  rintro t ⟨⟨hlen, hpvLen⟩, hge, hle⟩
  have hsub : guardedSub .segLen t.regs.ipLen t.regs.ipHlen = s.regs.ipLen - t.regs.ipHlen :=
    hlen ▸ guardedSub_of_le _ hle
  exact ⟨hge, hlen ▸ hle, rfl, (min_le_right _ _).trans hsub.le, min_le_left _ _, hpvLen⟩

theorem opIpv4Parse_passed (s : State) : (opIpv4Parse s).Ends (IpPassed s) := by
  suffices hrun : Leads (IpHanded s) opIpv4Parse (IpPassed s) from hrun s ⟨rfl, rfl⟩
  refine .cons .raiseIf_keeps ?_
  refine .cons (.readIp fun _ _ h => h) ?_
  refine .cons (opIpHlen_leads s) ?_
  refine .cons (R := fun t => IpHanded s t ∧ 20 ≤ t.regs.ipHlen ∧ t.regs.ipHlen ≤ t.regs.ipLen)
    (.raiseIf_lt fun _ h hle => ⟨h.1, h.2, hle⟩) ?_
  refine .cons (.readIp fun _ _ h => h) ?_
  refine .cons (.readIp fun _ _ h => h) ?_
  refine .cons (.readIp fun _ _ h => h) ?_
  refine .cons (.readIp fun _ _ h => h) ?_
  refine .cons (opIpSlice_leads s) ?_
  exact .cons (.andThen .raiseIf_keeps (.ok fun _ h => { h with })) .nil

/-- The segment lies in the packet, which starts at frame offset 14 (R53). -/
theorem IpPassed.slice_le {s t : State} (h : IpPassed s t) : t.regs.segOff + t.regs.segLen ≤ 14 + s.regs.ipLen := by
  obtain ⟨-, hheader, hsegOff, hsegLen, -, -⟩ := h
  omega

/-- A segment is at most 65515 bytes (R14). -/
theorem IpPassed.segLen_le_max {s t : State} (h : IpPassed s t) : t.regs.segLen ≤ 65515 := by
  obtain ⟨hheader, -, -, -, htotal, -⟩ := h
  have hmax := t.regs.ipTotlen.isLt
  omega

/-! ## The TCP stage -/

/-- `t` is on the segment `s` is on, with the same `PV_LEN`. -/
def TcpHanded (s t : State) : Prop :=
  t.regs.segOff = s.regs.segOff ∧ t.regs.segLen = s.regs.segLen ∧ t.regs.pvLen = s.regs.pvLen

/-- `t` is on the segment `s` is on and holds the length of its header, in whole words (R156). -/
def TcpHeader (s t : State) : Prop := TcpHanded s t ∧ t.regs.tcpHlen = t.regs.tcpDoff.toNat * 4

/-- That header is long enough and inside the segment (R157, R158). -/
def TcpHeaderFits (s t : State) : Prop :=
  TcpHeader s t ∧ 5 ≤ t.regs.tcpDoff.toNat ∧ t.regs.tcpHlen ≤ t.regs.segLen

/-- What the TCP stage leaves of a segment it passes: the slice behind the header (R156 to R158, R162). -/
structure TcpPassed (s t : State) : Prop where
  doff_ge : 5 ≤ t.regs.tcpDoff.toNat
  header_eq : t.regs.tcpHlen = t.regs.tcpDoff.toNat * 4
  header_le : t.regs.tcpHlen ≤ s.regs.segLen
  payOff_eq : t.regs.payOff = s.regs.segOff + t.regs.tcpHlen
  payLen_eq : t.regs.payLen = s.regs.segLen - t.regs.tcpHlen
  pvLen_eq : t.regs.pvLen = s.regs.pvLen

theorem opTcpDoff_leads (s : State) : Leads (TcpHanded s) opTcpDoff (TcpHeader s) := by
  intro t ht
  show (readTcp _ _ t).Ends _
  exact readInto_ends fun v => ⟨ht, rfl⟩

theorem opTcpFlagset_leads (s : State) : Leads (TcpHeaderFits s) opTcpFlagset (TcpHeaderFits s) := fun _ h => h

theorem opTcpPayload_leads (s : State) : Leads (TcpHeaderFits s) opTcpPayload (TcpPassed s) := by
  rintro t ⟨⟨⟨hoff, hlen, hpvLen⟩, heq⟩, hdoff, hle⟩
  exact ⟨hdoff, heq, hlen ▸ hle, hoff ▸ rfl, hlen ▸ guardedSub_of_le _ hle, hpvLen⟩

theorem opTcpParse_passed (s : State) : (opTcpParse s).Ends (TcpPassed s) := by
  suffices hrun : Leads (TcpHanded s) opTcpParse (TcpPassed s) from hrun s ⟨rfl, rfl, rfl⟩
  refine .cons .raiseIf_keeps ?_
  refine .cons (.readTcp fun _ _ h => h) ?_
  refine .cons (.readTcp fun _ _ h => h) ?_
  refine .cons (.readTcp fun _ _ h => h) ?_
  refine .cons (.readTcp fun _ _ h => h) ?_
  refine .cons (R := TcpHeader s) (opTcpDoff_leads s) ?_
  refine .cons (R := fun t => TcpHeader s t ∧ 5 ≤ t.regs.tcpDoff.toNat) (.raiseIf_lt fun _ h hge => ⟨h, hge⟩) ?_
  refine .cons (R := TcpHeaderFits s) (.raiseIf_lt fun _ h hle => ⟨h.1, h.2, hle⟩) ?_
  refine .cons (.readTcp fun _ _ h => h) ?_
  refine .cons (.readTcp fun _ _ h => h) ?_
  refine .cons (opTcpFlagset_leads s) ?_
  exact .cons (opTcpPayload_leads s) .nil

theorem TcpPassed.header_ge {s t : State} (h : TcpPassed s t) : 20 ≤ t.regs.tcpHlen := by
  obtain ⟨hdoff, hheader, -, -, -, -⟩ := h
  omega

/-- The payload is the end of the segment (R53). -/
theorem TcpPassed.slice_eq {s t : State} (h : TcpPassed s t) :
    t.regs.payOff + t.regs.payLen = s.regs.segOff + s.regs.segLen := by
  obtain ⟨-, -, hheader, hpayOff, hpayLen, -⟩ := h
  omega

/-- A payload is at most 65495 bytes (R14). -/
theorem TcpPassed.payLen_le_max {s t : State} (h : TcpPassed s t) (hsegLen : s.regs.segLen ≤ 65515) :
    t.regs.payLen ≤ 65495 := by
  have hheader := h.header_ge
  have hpayLen := h.payLen_eq
  omega

/-! ## The report stage -/

/-- A byte the preview may hold (R21, R193). -/
def Printable (b : Byte) : Prop := 0x20 ≤ b.toNat ∧ b.toNat ≤ 0x7E

theorem previewChar_printable (b : Byte) : Printable (previewChar b) := by
  unfold previewChar
  split
  · assumption
  · exact ⟨by decide, by decide⟩

/-- The first `n` bytes of the preview are printable. -/
def PreviewPrintable (n : Nat) (t : State) : Prop := ∀ j (hj : j < 64), j < n → Printable t.pv[j]

/-- `t` is `s` with the first `n` bytes of the preview written. -/
def PreviewTo (s : State) (n : Nat) (t : State) : Prop :=
  t.regs = s.regs ∧ t.stage = s.stage ∧ PreviewPrintable n t

theorem buildOne_leads (s : State) (i : Nat) : Leads (PreviewTo s i) (buildOne i) (PreviewTo s (i + 1)) := by
  rintro t ⟨hregs, hstage, hprint⟩
  unfold buildOne
  split
  · next v _ =>
    obtain ⟨_, h⟩ | ⟨-, h⟩ := memWrite_cases t i (previewChar (BitVec.ofNat 8 v)) <;> rw [h]
    · refine ⟨hregs, hstage, fun j hj hji => ?_⟩
      rw [Vector.getElem_set]
      split
      · exact previewChar_printable _
      · exact hprint j hj (by omega)
    · trivial
  · trivial

theorem buildFrom_leads (s : State) (n i : Nat) : Leads (PreviewTo s i) (buildFrom n i) (PreviewTo s (i + n)) := by
  induction n generalizing i with
  | zero => exact .nil
  | succ n ih =>
    refine (buildOne_leads s i).andThen ?_
    rw [show i + (n + 1) = i + 1 + n by omega]
    exact ih (i + 1)

/-- `t` is on the payload `s` is on, with `PV_LEN` set (R192). -/
structure PreviewSized (s t : State) : Prop where
  stage_eq : t.stage = s.stage
  tcpHlen_eq : t.regs.tcpHlen = s.regs.tcpHlen
  payLen_eq : t.regs.payLen = s.regs.payLen
  pvLen_eq : t.regs.pvLen.toNat = min s.regs.payLen 64

theorem PreviewSized.pvLen_le {s t : State} (h : PreviewSized s t) : t.regs.pvLen.toNat ≤ 64 :=
  h.pvLen_eq ▸ min_le_right _ _

theorem PreviewSized.of_previewTo {s t u : State} {n : Nat} (h : PreviewSized s t) (hu : PreviewTo t n u) :
    PreviewSized s u := by
  obtain ⟨hstage, hhlen, hlen, hpv⟩ := h
  obtain ⟨hregs, hstage', -⟩ := hu
  exact ⟨by rw [hstage', hstage], by rw [hregs, hhlen], by rw [hregs, hlen], by rw [hregs, hpv]⟩

/-- What the report stage leaves of a payload: the record, with a preview of printable bytes (R191 to R194). -/
structure Rendered (s t : State) : Prop extends PreviewSized s t where
  report_eq : ∃ preview, t.regs.report = assemble t.regs preview ∧ preview.length = t.regs.pvLen.toNat
    ∧ ∀ b ∈ preview, Printable b

theorem opPreviewLen_ends (s : State) : (opPreviewLen s).Ends (PreviewSized s) := by
  refine ⟨rfl, rfl, rfl, ?_⟩
  show (BitVec.ofNat 7 (min s.regs.payLen 64)).toNat = _
  rw [BitVec.toNat_ofNat, Nat.mod_eq_of_lt (by omega)]

theorem opPreviewBuild_leads (s : State) :
    Leads (PreviewSized s) opPreviewBuild (fun t => PreviewSized s t ∧ PreviewPrintable t.regs.pvLen.toNat t) := by
  intro t ht
  have hnone : PreviewPrintable 0 t := fun j _ hj => absurd hj (Nat.not_lt_zero j)
  refine (buildFrom_leads t t.regs.pvLen.toNat 0 t ⟨rfl, rfl, hnone⟩).mono fun u hu => ⟨ht.of_previewTo hu, ?_⟩
  obtain ⟨hregs, -, hprint⟩ := hu
  rwa [hregs, ← Nat.zero_add t.regs.pvLen.toNat]

theorem opReportAssemble_leads (s : State) :
    Leads (fun t => PreviewSized s t ∧ PreviewPrintable t.regs.pvLen.toNat t) opReportAssemble (Rendered s) := by
  rintro t ⟨hsized, hprint⟩
  have hlen := hsized.pvLen_le
  rw [opReportAssemble, readPreview_in t.pv hlen]
  refine ⟨{ hsized with }, t.pv.toList.take t.regs.pvLen.toNat, rfl, ?_, fun b hb => ?_⟩
  · simpa using hlen
  · obtain ⟨j, hj, rfl⟩ := List.mem_take_iff_getElem.1 hb
    have hj' : j < t.regs.pvLen.toNat := by omega
    simpa using hprint j (by omega) hj'

theorem opRender_rendered (s : State) : (opRender s).Ends (Rendered s) := by
  suffices hrun : Leads (· = s) (fun s => (runOps [opPreviewLen, opPreviewBuild, opReportAssemble] s).andThen
      (fun t => .ok (t.putStatus Cause.report.code))) (Rendered s) from hrun s rfl
  refine .andThen (.cons (R := PreviewSized s) ?_ (.cons (opPreviewBuild_leads s)
    (.cons (opReportAssemble_leads s) .nil))) ?_
  · rintro _ rfl; exact opPreviewLen_ends _
  · exact fun _ h => { h with }

/-! ## What a stage operation leaves as it was -/

theorem StageWrites.loop_eq {s t : State} (h : StageWrites s t) : t.loop = s.loop := by
  obtain ⟨_, _, _, _, rfl⟩ := h; rfl
theorem StageWrites.fb_eq {s t : State} (h : StageWrites s t) : t.fb = s.fb := by
  obtain ⟨_, _, _, _, rfl⟩ := h; rfl
theorem StageWrites.pending_eq {s t : State} (h : StageWrites s t) : t.pending = s.pending := by
  obtain ⟨_, _, _, _, rfl⟩ := h; rfl
theorem StageWrites.inFlight_eq {s t : State} (h : StageWrites s t) : t.inFlight = s.inFlight := by
  obtain ⟨_, _, _, _, rfl⟩ := h; rfl
theorem StageWrites.len_eq {s t : State} (h : StageWrites s t) : t.len = s.len := by
  obtain ⟨_, _, _, _, rfl⟩ := h; rfl
theorem StageWrites.reportOut_eq {s t : State} (h : StageWrites s t) : t.reportOut = s.reportOut := by
  obtain ⟨_, _, _, _, rfl⟩ := h; rfl
theorem StageWrites.diagOut_eq {s t : State} (h : StageWrites s t) : t.diagOut = s.diagOut := by
  obtain ⟨_, _, _, _, rfl⟩ := h; rfl

theorem opStages_within (s : State) : (opStages s).Within s := by
  refine runOps_within ?_ s
  simp only [List.forall_mem_cons, List.not_mem_nil, false_imp_iff, implies_true, and_true]
  exact ⟨opEthParse_within, opIpv4Parse_within, opTcpParse_within, opRender_within⟩

/-! ## The parts of the invariant -/

/-- Only the codes of R251 have gone out on `DIAG_OUT`. -/
def CodesOut (s : State) : Prop := ∀ c, c ∈ s.diagOut → c ∈ Cause.all.map Cause.code

theorem Cause.code_mem (c : Cause) : c.code ∈ Cause.all.map Cause.code := by
  refine List.mem_map_of_mem ?_
  cases c <;> decide

theorem CodesOut.append {s t : State} (h : CodesOut s) (c : Cause) (ht : t.diagOut = s.diagOut ++ [c.code]) :
    CodesOut t := by
  intro b hb
  rw [ht, List.mem_append, List.mem_singleton] at hb
  obtain hb | rfl := hb
  · exact h b hb
  · exact c.code_mem

/-- A block with no frame in flight, about to request one or halted. -/
theorem Inv.of_idle {s : State} (hop : s.op = none) (hstage : s.stage = .idle) (hinFlight : s.inFlight = false)
    (hpending : s.pending = none) (hfb : Memory.wf s.fb = true) (hpvLen : s.regs.pvLen.toNat ≤ 64)
    (hcodes : CodesOut s) : Inv s :=
  ⟨hfb, hpvLen, fun h => by simp [hinFlight] at h, hcodes, fun _ => hop, fun h => absurd hpending h,
    by simp [OpInv, hop, hstage, hinFlight]⟩

/-- The end of a pass. -/
theorem Inv.of_endPass {s : State} (hcodes : CodesOut s) : Inv { s.endPass with op := none } :=
  .of_idle rfl rfl rfl rfl rfl (Regs.unwritten_pvLen_le _) hcodes

theorem Inv.loop_running {s : State} {i : Instr} (h : Inv (s.atOp i)) : s.loop = .running := by
  obtain ⟨-, -, -, -, hhalted, -, -⟩ := h
  cases hloop : s.loop with
  | running => rfl
  | halted => cases hhalted hloop

theorem Inv.pending_eq_none {s : State} {i : Instr} (h : Inv (s.atOp i)) (hi : i ≠ .emitReport) : s.pending = none := by
  obtain ⟨-, -, -, -, -, hpending, -⟩ := h
  by_contra hsome
  exact hi (Option.some.inj (hpending hsome).1)

theorem Inv.opInv {s : State} (h : Inv s) : OpInv s := by
  obtain ⟨-, -, -, -, -, -, hop⟩ := h; exact hop

theorem Inv.codesOut {s : State} (h : Inv s) : CodesOut s := by
  obtain ⟨-, -, -, hcodes, -, -, -⟩ := h; exact hcodes

theorem Inv.pvLen_le {s : State} (h : Inv s) : s.regs.pvLen.toNat ≤ 64 := by
  obtain ⟨-, hpvLen, -, -, -, -, -⟩ := h; exact hpvLen

/-! ## Inside a pass -/

/-- An operation inside the pass that leaves the frame, `LOOP` and `DIAG_OUT` as they are, and the operation that comes
next. -/
theorem Inv.of_kept {s t : State} {i j : Instr} (h : Inv (s.atOp i)) (hfb : t.fb = s.fb) (hlen : t.len = s.len)
    (hinFlight : t.inFlight = s.inFlight) (hloop : t.loop = s.loop) (hdiagOut : t.diagOut = s.diagOut)
    (hpvLen : t.regs.pvLen.toNat ≤ 64)
    (hpending : t.pending ≠ none → j = .emitReport ∧ t.pending = some t.regs.report) (hnext : OpInv (t.atOp j)) :
    Inv (t.atOp j) := by
  have hrunning := hloop.trans h.loop_running
  obtain ⟨hwf, -, hframe, hcodes, -, -, -⟩ := h
  refine ⟨(congrArg Memory.wf hfb).trans hwf, hpvLen, fun hfl => ?_, fun c hc => hcodes c (hdiagOut ▸ hc),
    fun hhalted => absurd (hrunning.symm.trans hhalted) (by simp), fun hsome => ?_, hnext⟩
  · obtain ⟨bs, hbytes, hcount⟩ := hframe (hinFlight ▸ hfl)
    exact ⟨bs, hfb.trans hbytes, hlen.trans hcount⟩
  · obtain ⟨rfl, hreport⟩ := hpending hsome
    exact ⟨rfl, hreport⟩

/-- One stage as one step: where it goes on, the invariant asks what the next operation needs; a raise ends the pass. -/
theorem stage_keeps_inv {s t : State} {i : Instr} {r : Flow} (h : Inv (s.atOp i)) (hi : i ≠ .emitReport)
    (hwithin : r.Within s)
    (hok : ∀ u, r = .ok u → StageWrites s u →
      u.regs.pvLen.toNat ≤ 64 ∧ ∃ j, sequence i u = u.atOp j ∧ OpInv (u.atOp j))
    (hraised : ∀ c u, r = .raised c u → sequence i (takeRaise c u) = { takeRaise c u with op := none })
    (hexec : settle r = .next t) : Inv (sequence i t) := by
  cases r with
  | ok u =>
    cases hexec
    obtain ⟨hpvLen, j, hj, hnext⟩ := hok t rfl hwithin
    rw [hj]
    have hpending := hwithin.pending_eq.trans (h.pending_eq_none hi)
    exact h.of_kept hwithin.fb_eq hwithin.len_eq hwithin.inFlight_eq hwithin.loop_eq hwithin.diagOut_eq hpvLen
      (absurd hpending) hnext
  | raised c u =>
    cases hexec
    rw [hraised c u rfl]
    refine .of_endPass (h.codesOut.append c ?_)
    simp [State.emitDiag, hwithin.diagOut_eq, State.atOp]
  | fault f => cases hexec

theorem sequence_ethParse {t : State} (h : t.stage = .ip) : sequence .ethParse t = t.atOp .ipv4Parse := by
  simp [sequence, stageOp, State.atOp, h]

theorem sequence_ipv4Parse {t : State} (h : t.stage = .tcp) : sequence .ipv4Parse t = t.atOp .tcpParse := by
  simp [sequence, stageOp, State.atOp, h]

theorem sequence_tcpParse {t : State} (h : t.stage = .render) : sequence .tcpParse t = t.atOp .render := by
  simp [sequence, stageOp, State.atOp, h]

theorem ethParse_keeps_inv {s t : State} (h : Inv (s.atOp .ethParse)) (hexec : exec .ethParse s = .next t) :
    Inv (sequence .ethParse t) := by
  obtain ⟨-, hinFlight⟩ := h.opInv
  refine stage_keeps_inv h (by simp) (opEthParse_within s) (fun u hu hw => ?_) (fun _ _ _ => rfl) hexec
  have hstage := opEthParse_stage hu
  have hpassed := (opEthParse_passed s).of_ok hu
  refine ⟨hpassed.pvLen_eq ▸ h.pvLen_le, .ipv4Parse, sequence_ethParse hstage, hstage,
    hw.inFlight_eq.trans hinFlight, ?_, hpassed.ipOff_eq, ?_⟩ <;> rw [State.atOp, hw.len_eq]
  · exact hpassed.header_le
  · exact hpassed.ipLen_eq

theorem ipv4Parse_keeps_inv {s t : State} (h : Inv (s.atOp .ipv4Parse)) (hexec : exec .ipv4Parse s = .next t) :
    Inv (sequence .ipv4Parse t) := by
  obtain ⟨-, hinFlight, hheader, -, hipLen⟩ := h.opInv
  refine stage_keeps_inv h (by simp) (opIpv4Parse_within s) (fun u hu hw => ?_) (fun _ _ _ => rfl) hexec
  have hstage := opIpv4Parse_stage hu
  have hpassed := (opIpv4Parse_passed s).of_ok hu
  have hslice : u.regs.segOff + u.regs.segLen ≤ u.len := by
    have hin := hpassed.slice_le
    change 14 ≤ s.len at hheader
    change s.regs.ipLen = s.len - 14 at hipLen
    have hlen := hw.len_eq
    omega
  exact ⟨hpassed.pvLen_eq ▸ h.pvLen_le, .tcpParse, sequence_ipv4Parse hstage, hstage, hw.inFlight_eq.trans hinFlight,
    hslice, hpassed.segLen_le_max⟩

theorem tcpParse_keeps_inv {s t : State} (h : Inv (s.atOp .tcpParse)) (hexec : exec .tcpParse s = .next t) :
    Inv (sequence .tcpParse t) := by
  obtain ⟨-, hinFlight, hslice, hsegLen⟩ := h.opInv
  refine stage_keeps_inv h (by simp) (opTcpParse_within s) (fun u hu hw => ?_) (fun _ _ _ => rfl) hexec
  have hstage := opTcpParse_stage hu
  have hpassed := (opTcpParse_passed s).of_ok hu
  exact ⟨hpassed.pvLen_eq ▸ h.pvLen_le, .render, sequence_tcpParse hstage, hstage, hw.inFlight_eq.trans hinFlight,
    (hpassed.slice_eq.trans_le hslice).trans_eq hw.len_eq.symm, hpassed.payLen_le_max hsegLen⟩

theorem render_keeps_inv {s t : State} (h : Inv (s.atOp .render)) (hexec : exec .render s = .next t) :
    Inv (sequence .render t) := by
  obtain ⟨hstage, hinFlight, -, -⟩ := h.opInv
  refine stage_keeps_inv h (by simp) (opRender_within s) (fun u hu hw => ?_) (fun c u hu => ?_) hexec
  · have hrendered := (opRender_rendered s).of_ok hu
    have hstatus := opRender_status hu
    exact ⟨hrendered.pvLen_le, .emitReport, sequence_render hstatus,
      hrendered.stage_eq.trans hstage, hw.inFlight_eq.trans hinFlight, hstatus⟩
  · have hnoRaise := opRender_noRaise s
    rw [hu] at hnoRaise
    exact hnoRaise.elim

/-! ## The record, the status and the request -/

theorem State.emitReport_pending_cases (s : State) :
    s.emitReport.pending = none ∨ s.emitReport.pending = some s.regs.report := by
  unfold State.emitReport
  split <;> simp

theorem emitReport_keeps_inv {s : State} (h : Inv (s.atOp .emitReport)) : Inv (sequence .emitReport s.emitReport) := by
  obtain ⟨hstage, hinFlight, hstatus⟩ := h.opInv
  have hnext : s.emitReport.stage = .render ∧ s.emitReport.inFlight = true ∧ s.emitReport.status = 0x00 :=
    ⟨s.emitReport_stage.trans hstage, s.emitReport_inFlight.trans hinFlight, s.emitReport_status.trans hstatus⟩
  have hpvLen : s.emitReport.regs.pvLen.toNat ≤ 64 := s.emitReport_regs ▸ h.pvLen_le
  obtain hpending | hpending := s.emitReport_pending_cases
  · rw [sequence_emitReport_taken hpending]
    exact h.of_kept (by simp) (by simp) (by simp) (by simp) (by simp) hpvLen (absurd hpending) hnext
  · rw [sequence_emitReport_pending hpending]
    exact h.of_kept (by simp) (by simp) (by simp) (by simp) (by simp) hpvLen (fun _ => ⟨rfl, by simpa using hpending⟩)
      hnext

theorem emitDiag_keeps_inv {s : State} (h : Inv (s.atOp .emitDiag)) : Inv (sequence .emitDiag s.emitDiag) := by
  obtain ⟨-, -, hstatus⟩ := h.opInv
  change s.status = Cause.report.code at hstatus
  exact .of_endPass (h.codesOut.append .report (hstatus ▸ s.emitDiag_diagOut))

/-- A request is made only where none of R232, R237, R241 and R286 stands against it. -/
theorem mayRequest_iff {s : State} :
    mayRequest s = true ↔ s.loop = .running ∧ s.stage = .idle ∧ s.inFlight = false ∧ s.pending = none := by
  simp [mayRequest, and_assoc]

/-- All a request can do (R232, R235): nothing, or take a frame, or take an error and halt. -/
theorem exec_nextFrame_cases {s t : State} (h : exec .nextFrame s = .next t) :
    t = s ∨ (mayRequest s = true ∧
      ((∃ bs rest, s.answers = .frame bs :: rest ∧ t = { s with answers := rest }.loadFrame bs)
        ∨ ∃ e rest, s.answers = .error e :: rest
            ∧ t = takeCaptureError { s with answers := rest, sourceError := some e })) := by
  change execNextFrame s = _ at h
  rw [execNextFrame, request] at h
  by_cases hrequest : mayRequest s = true
  · rw [if_pos hrequest] at h
    rcases hanswers : s.answers with _ | ⟨bs | e, rest⟩ <;> rw [hanswers] at h <;> cases h
    · exact .inl rfl
    · exact .inr ⟨hrequest, .inl ⟨bs, rest, rfl, rfl⟩⟩
    · exact .inr ⟨hrequest, .inr ⟨e, rest, rfl, rfl⟩⟩
  · rw [if_neg hrequest] at h
    cases h
    exact .inl rfl

theorem sequence_nextFrame_frame {t : State} (h : t.inFlight = true) : sequence .nextFrame t = t.atOp .ethParse := by
  simp [sequence, State.atOp, h]

theorem sequence_nextFrame_none {t : State} (h : t.inFlight = false) :
    sequence .nextFrame t = { t with op := none } := by
  simp only [sequence, h, Bool.false_eq_true, if_false]

theorem Inv.opInv_of_none {s : State} (h : Inv s) (hop : s.op = none) : s.stage = .idle ∧ s.inFlight = false := by
  simpa [OpInv, hop] using h.opInv

/-- A frame answered starts the pass (R230, R232). -/
theorem loadFrame_keeps_inv {s : State} (h : Inv s) (hop : s.op = none) (hloop : s.loop = .running)
    (hpending : s.pending = none) (bs : List Byte) : Inv (sequence .nextFrame (s.loadFrame bs)) := by
  obtain ⟨hstage, -⟩ := h.opInv_of_none hop
  rw [sequence_nextFrame_frame (s.loadFrame_inFlight bs)]
  exact ⟨Memory.wf_ofBytes bs, h.pvLen_le, fun _ => ⟨bs, FrameIn.loadFrame s bs⟩, h.codesOut,
    fun hhalted => absurd (hloop.symm.trans hhalted) (by simp), fun hsome => absurd hpending hsome, hstage, rfl⟩

/-- An error answered leaves the block halted and idle (R235). -/
theorem takeCaptureError_keeps_inv {s : State} (h : Inv s) (hop : s.op = none) (hpending : s.pending = none) :
    Inv (sequence .nextFrame (takeCaptureError s)) := by
  obtain ⟨-, hinFlight⟩ := h.opInv_of_none hop
  have hcodes := h.codesOut.append .captureError (takeCaptureError_diagOut s)
  obtain ⟨hfb, hpvLen, -⟩ := h
  rw [sequence_nextFrame_none ((takeCaptureError_inFlight s).trans hinFlight)]
  exact .of_idle rfl rfl hinFlight hpending hfb hpvLen hcodes

theorem nextFrame_keeps_inv {s t : State} (h : Inv s) (hop : s.op = none) (hexec : exec .nextFrame s = .next t) :
    Inv (sequence .nextFrame t) := by
  obtain rfl | ⟨hrequest, hanswer⟩ := exec_nextFrame_cases hexec
  · rw [sequence_nextFrame_none (h.opInv_of_none hop).2, State.op_none_self hop]
    exact h
  obtain ⟨hloop, -, -, hpending⟩ := mayRequest_iff.1 hrequest
  obtain ⟨bs, rest, -, rfl⟩ | ⟨e, rest, -, rfl⟩ := hanswer
  · exact loadFrame_keeps_inv (s := { s with answers := rest }) h hop hloop hpending bs
  · exact takeCaptureError_keeps_inv (s := { s with answers := rest, sourceError := some e }) h hop hpending

/-! ## The step -/

theorem nextOp_of_op {s : State} {i : Instr} (hop : s.op = some i) : nextOp s = some i := by simp [nextOp, hop]
theorem nextOp_of_running {s : State} (hop : s.op = none) (hloop : s.loop = .running) : nextOp s = some .nextFrame := by
  simp [nextOp, hop, hloop]
theorem nextOp_of_halted {s : State} (hop : s.op = none) (hloop : s.loop = .halted) : nextOp s = none := by
  simp [nextOp, hop, hloop]

theorem stepOp_next {s t : State} {i : Instr} (hnext : nextOp s = some i)
    (hexec : exec i { s with op := none } = .next t) : stepOp s = .next (sequence i t) := by
  simp only [stepOp, hnext, hexec]

theorem stepOp_none {s : State} (hnext : nextOp s = none) : stepOp s = .next s := by
  simp only [stepOp, hnext]

/-- All a step of the sequence can do. -/
theorem stepOp_cases {s t : State} (h : stepOp s = .next t) :
    (nextOp s = none ∧ t = s)
      ∨ ∃ i u, nextOp s = some i ∧ exec i { s with op := none } = .next u ∧ t = sequence i u := by
  unfold stepOp at h
  split at h
  · next hnone => cases h; exact .inl ⟨hnone, rfl⟩
  · next i hsome =>
    split at h
    · next u hexec => cases h; exact .inr ⟨i, u, hsome, hexec, rfl⟩
    · cases h
    · cases h

/-- The operations a run comes to (R230). -/
theorem OpInv.op_mem {s : State} {i : Instr} (h : OpInv (s.atOp i)) :
    i ∈ [.ethParse, .ipv4Parse, .tcpParse, .render, .emitReport, .emitDiag] := by
  unfold OpInv at h
  split at h <;> simp_all [State.atOp]

theorem exec_keeps_inv {s t : State} {i : Instr} (h : Inv (s.atOp i)) (hexec : exec i s = .next t) :
    Inv (sequence i t) := by
  have hi := h.opInv.op_mem
  simp only [List.mem_cons, List.not_mem_nil, or_false] at hi
  obtain rfl | rfl | rfl | rfl | rfl | rfl := hi
  · exact ethParse_keeps_inv h hexec
  · exact ipv4Parse_keeps_inv h hexec
  · exact tcpParse_keeps_inv h hexec
  · exact render_keeps_inv h hexec
  · cases hexec; exact emitReport_keeps_inv h
  · cases hexec; exact emitDiag_keeps_inv h

theorem stepOp_keeps_inv {s t : State} (h : Inv s) (hstep : stepOp s = .next t) : Inv t := by
  obtain ⟨-, rfl⟩ | ⟨i, u, hnext, hexec, rfl⟩ := stepOp_cases hstep
  · exact h
  cases hop : s.op with
  | some j =>
    cases hnext.symm.trans (nextOp_of_op hop)
    exact exec_keeps_inv ((State.atOp_self hop).symm ▸ h) hexec
  | none =>
    cases hloop : s.loop with
    | running =>
      cases hnext.symm.trans (nextOp_of_running hop hloop)
      exact nextFrame_keeps_inv h hop (State.op_none_self hop ▸ hexec)
    | halted => cases hnext.symm.trans (nextOp_of_halted hop hloop)

theorem takeReset_inv {s : State} (h : CodesOut s) : Inv (takeReset s) :=
  .of_idle rfl rfl rfl rfl rfl (Regs.unwritten_pvLen_le _) h

/-- Settles O48: a reset leaves the reset state, and each operation a run comes to leaves what the next one needs. -/
theorem stepKeepsInvariant : Obligations.StepKeepsInvariant := by
  unfold Obligations.StepKeepsInvariant
  intro s t h hstep
  unfold step readReset at hstep
  rcases hreset : s.resetIn with _ | ⟨_ | n, rest⟩ <;> rw [hreset] at hstep
  · exact stepOp_keeps_inv h hstep
  · cases hstep; exact takeReset_inv h.codesOut
  · exact stepOp_keeps_inv (s := { s with resetIn := n :: rest }) h hstep

/-- Settles O47: reset is an idle block. -/
theorem resetMeetsInvariant : Obligations.ResetMeetsInvariant := by
  unfold Obligations.ResetMeetsInvariant
  have hcodes : CodesOut State.reset := fun _ h => by cases h
  exact ⟨.of_idle rfl rfl rfl rfl State.reset_memory_wf (Regs.unwritten_pvLen_le 0) hcodes, rfl, rfl, rfl, rfl, rfl, rfl⟩

/-- Settles O5, from what a step of the sequence does and where each operation leads. -/
theorem stepMakesTheNextOperation : Obligations.StepMakesTheNextOperation := by
  unfold Obligations.StepMakesTheNextOperation
  refine ⟨fun s t i hreset hop hexec => ?_, fun s hreset hop hloop t hexec => ?_, fun s hreset hop hloop => ?_,
    fun t h => ?_, fun t h => ?_, fun t h => ?_, fun t h => ?_, fun t h => ?_, fun t h => ?_, fun t h => ?_,
    fun t => rfl⟩
  · rw [step_eq_stepOp hreset]
    exact stepOp_next (nextOp_of_op hop) hexec
  · rw [step_eq_stepOp hreset]
    exact stepOp_next (nextOp_of_running hop hloop) ((State.op_none_self hop).symm ▸ hexec)
  · rw [step_eq_stepOp hreset]
    exact stepOp_none (nextOp_of_halted hop hloop)
  · rw [sequence_nextFrame_frame h]; rfl
  · rw [sequence_ethParse h]; rfl
  · rw [sequence_ipv4Parse h]; rfl
  · rw [sequence_tcpParse h]; rfl
  · rw [sequence_render h]; rfl
  · obtain ⟨r, hr⟩ := Option.ne_none_iff_exists'.1 h
    rw [sequence_emitReport_pending hr]; rfl
  · rw [sequence_emitReport_taken h]; rfl

/-! ## The record of a pass -/

/-- A record within the ranges of R21. -/
def RecordInRange (r : PacketReport) : Prop :=
  20 ≤ r.headerLen.toNat ∧ r.headerLen.toNat ≤ 60 ∧ r.headerLen.toNat % 4 = 0 ∧ r.payloadLen.toNat ≤ 65495
    ∧ r.previewLen.toNat = min r.payloadLen.toNat 64 ∧ r.wf = true ∧ ∀ b ∈ r.preview, Printable b

/-- The lengths a record copies are within the ranges of R14. -/
def LengthsInRange (s : State) : Prop :=
  20 ≤ s.regs.tcpHlen ∧ s.regs.tcpHlen ≤ 60 ∧ s.regs.tcpHlen % 4 = 0 ∧ s.regs.payLen ≤ 65495

theorem TcpPassed.lengthsInRange {s t : State} (h : TcpPassed s t) (hsegLen : s.regs.segLen ≤ 65515) :
    LengthsInRange t := by
  have hdoff := t.regs.tcpDoff.isLt
  have hheader := h.header_eq
  exact ⟨h.header_ge, by omega, by omega, h.payLen_le_max hsegLen⟩

theorem toNat_narrow_of_lt {w : Nat} (name : Config.RegName) {v : Nat} (h : v < 2 ^ w) : (narrow w name v).toNat = v := by
  rw [narrow_of_lt name h, BitVec.toNat_ofNat, Nat.mod_eq_of_lt h]

theorem Rendered.recordInRange {s t : State} (h : Rendered s t) (hs : LengthsInRange s) :
    RecordInRange t.regs.report := by
  obtain ⟨hge, hle, hmod, hmax⟩ := hs
  obtain ⟨⟨-, hhlen, hlen, hpv⟩, preview, hreport, hcount, hprint⟩ := h
  have hheader : (narrow 6 .tcpHlen t.regs.tcpHlen).toNat = s.regs.tcpHlen := by
    rw [toNat_narrow_of_lt _ (by omega), hhlen]
  have hpayload : (narrow 16 .payLen t.regs.payLen).toNat = s.regs.payLen := by
    rw [toNat_narrow_of_lt _ (by omega), hlen]
  rw [hreport]
  simp only [RecordInRange, assemble, hheader, hpayload, PacketReport.wf, hcount, hpv]
  exact ⟨hge, hle, hmod, hmax, trivial, by simp [Config.previewMax], hprint⟩

theorem opStages_recordInRange (s : State) : (opStages s).Ends fun t => RecordInRange t.regs.report := by
  suffices hrun : Leads (fun _ => True) opStages (fun t => RecordInRange t.regs.report) from hrun s trivial
  refine .cons (R := fun _ => True) (fun s _ => (opEthParse_passed s).mono fun _ _ => trivial) ?_
  refine .cons (R := fun t => t.regs.segLen ≤ 65515)
    (fun s _ => (opIpv4Parse_passed s).mono fun _ h => h.segLen_le_max) ?_
  refine .cons (R := LengthsInRange) (fun s hs => (opTcpParse_passed s).mono fun _ h => h.lengthsInRange hs) ?_
  exact .cons (fun s hs => (opRender_rendered s).mono fun _ h => h.recordInRange hs) .nil

/-- A pass that ends in a report sends its record, taken or left pending. -/
theorem finishPass_sent (s : State) :
    (finishPass s).reportOut ++ (finishPass s).pending.toList = s.reportOut ++ [s.regs.report] := by
  by_cases h : s.sink.head? = some .never
  · simp [finishPass_of_never h]
  · simp [finishPass_of_takes h]

/-- Settles O44: a pass sends the record its stages leave, or none. -/
theorem deliveredRecordsAreInRange : Obligations.DeliveredRecordsAreInRange := by
  unfold Obligations.DeliveredRecordsAreInRange
  intro s t bs r _ hexec hsent
  rw [exec_framePass] at hexec
  have hwithin := opStages_within s
  have hrange := opStages_recordInRange s
  cases hstages : opStages s with
  | ok u =>
    rw [hstages] at hexec hwithin hrange
    cases hexec
    rw [finishPass_sent, hwithin.reportOut_eq] at hsent
    have hr : u.regs.report = r := by simpa using hsent
    exact hr ▸ hrange
  | raised c u =>
    rw [hstages] at hexec hwithin
    cases hexec
    rw [takeRaise_pending, takeRaise_reportOut, hwithin.reportOut_eq] at hsent
    simp at hsent
  | fault f => rw [hstages] at hexec; cases hexec

end Sys2Proof.Machine

/-! SUPPORT. The block's two memories (20_memory.md): reads beyond the frame, the slice or the preview space stop the
block, the stages' slices nest, and no operation writes the frame space, or, but for `PREVIEW.BUILD`, the preview space. -/

namespace Sys2Proof.Machine

/-! ## What a sequence keeps -/

/-- Whatever state the answer carries, of one that goes on or of a raise, meets `P`. -/
def Flow.Carries (P : State → Prop) : Flow → Prop
  | .ok t | .raised _ t => P t
  | .fault _ => True

theorem Flow.Carries.of_ok {P : State → Prop} {r : Flow} {t : State} (h : r.Carries P) (hr : r = .ok t) : P t := by
  subst hr; exact h

/-- From a state that meets `P`, the operation `f` comes only to states that meet `P`, also where it raises. -/
def Keeps (P : State → Prop) (f : State → Flow) : Prop := ∀ s, P s → (f s).Carries P

section
variable {P : State → Prop}

theorem Keeps.ok {g : State → State} (h : ∀ s, P s → P (g s)) : Keeps P (fun s => .ok (g s)) := h

theorem Keeps.andThen {f k : State → Flow} (hf : Keeps P f) (hk : Keeps P k) : Keeps P (fun s => (f s).andThen k) := by
  intro s hs
  have hr := hf s hs
  show ((f s).andThen k).Carries P
  cases h : f s with
  | ok t => exact hk t (hr.of_ok h)
  | raised c t => rw [h] at hr; exact hr
  | fault e => trivial

theorem Keeps.runOps {fs : List (State → Flow)} (h : ∀ f ∈ fs, Keeps P f) : Keeps P (runOps fs) := by
  induction fs with
  | nil => exact .ok fun _ hs => hs
  | cons f fs ih =>
    obtain ⟨hf, hfs⟩ := List.forall_mem_cons.1 h
    exact hf.andThen (ih hfs)

theorem Keeps.raiseIf {bad : State → Bool} {c : Cause} : Keeps P (fun s => Machine.raiseIf (bad s) c s) := by
  intro s hs
  show (Machine.raiseIf (bad s) c s).Carries P
  cases bad s <;> exact hs

theorem readInto_carries {off len addr : Nat} {w : Width} {put : Regs → Nat → Regs} {s : State}
    (h : ∀ v, P (s.putRegs (put s.regs v))) : (readInto off len addr w put s).Carries P := by
  obtain ⟨v, hv⟩ | hv := readInto_cases off len addr w put s <;> rw [hv]
  · exact h v
  · trivial

/-- A field extraction keeps whatever the register it writes does not bear on. -/
theorem Keeps.readEth {f : FieldAt} {put : Regs → Nat → Regs} (h : ∀ s v, P s → P (s.putRegs (put s.regs v))) :
    Keeps P (readEth f put) := fun s hs => readInto_carries fun v => h s v hs

theorem Keeps.readIp {f : FieldAt} {put : Regs → Nat → Regs} (h : ∀ s v, P s → P (s.putRegs (put s.regs v))) :
    Keeps P (readIp f put) := fun s hs => readInto_carries fun v => h s v hs

theorem Keeps.readTcp {f : FieldAt} {put : Regs → Nat → Regs} (h : ∀ s v, P s → P (s.putRegs (put s.regs v))) :
    Keeps P (readTcp f put) := fun s hs => readInto_carries fun v => h s v hs

end

/-! ## Slices nest -/

theorem StageWrites.frameIn {s t : State} {bs : List Byte} (h : StageWrites s t) (hf : FrameIn s bs) : FrameIn t bs :=
  ⟨h.fb_eq.trans hf.1, h.len_eq.trans hf.2⟩

theorem Flow.Within.of_ok {s t : State} {r : Flow} (h : r.Within s) (hr : r = .ok t) : StageWrites s t := by
  subst hr; exact h

/-- A stage that leaves `STAGE` at the next stage has gone on: a raise leaves it idle (R253). -/
theorem settle_eq_next_of_stage {r : Flow} {t : State} (h : settle r = .next t) (hstage : t.stage ≠ .idle) :
    r = .ok t := by
  obtain ⟨u, rfl, hu⟩ | ⟨c, u, -, hu⟩ | ⟨f, -, hf⟩ := settle_cases r
  · cases h; rfl
  · cases hu.symm.trans h
    exact absurd rfl hstage
  · cases hf.symm.trans h

/-- `t` is on the slice the IPv4 stage was handed in `s`. -/
def IpSliceKept (s t : State) : Prop := t.regs.ipOff = s.regs.ipOff ∧ t.regs.ipLen = s.regs.ipLen

/-- `t` is on the slice the TCP stage was handed in `s`. -/
def SegSliceKept (s t : State) : Prop := t.regs.segOff = s.regs.segOff ∧ t.regs.segLen = s.regs.segLen

theorem opIpv4Parse_keeps_slice (s : State) : (opIpv4Parse s).Carries (IpSliceKept s) := by
  suffices h : Keeps (IpSliceKept s) opIpv4Parse from h s ⟨rfl, rfl⟩
  refine Keeps.runOps ?_
  simp only [List.forall_mem_cons, List.not_mem_nil, false_imp_iff, implies_true, and_true]
  exact ⟨.raiseIf, .readIp fun _ _ h => h, .andThen .raiseIf (.ok fun _ h => h), .raiseIf, .readIp fun _ _ h => h,
    .readIp fun _ _ h => h, .readIp fun _ _ h => h, .readIp fun _ _ h => h, .andThen .raiseIf (.ok fun _ h => h),
    .andThen .raiseIf (.ok fun _ h => h)⟩

theorem opTcpParse_keeps_slice (s : State) : (opTcpParse s).Carries (SegSliceKept s) := by
  suffices h : Keeps (SegSliceKept s) opTcpParse from h s ⟨rfl, rfl⟩
  refine Keeps.runOps ?_
  simp only [List.forall_mem_cons, List.not_mem_nil, false_imp_iff, implies_true, and_true]
  exact ⟨.raiseIf, .readTcp fun _ _ h => h, .readTcp fun _ _ h => h, .readTcp fun _ _ h => h, .readTcp fun _ _ h => h,
    .readTcp fun _ _ h => h, .raiseIf, .raiseIf, .readTcp fun _ _ h => h, .readTcp fun _ _ h => h, .ok fun _ h => h,
    .ok fun _ h => h⟩

/-- Settles O45, from what each stage leaves of a frame it passes. -/
theorem slicesNest : Obligations.SlicesNest := by
  unfold Obligations.SlicesNest
  intro s t bs hframe
  refine ⟨fun hexec hstage => ?_, fun hoff hend hexec hstage => ?_, fun _ hexec hstage => ?_⟩
  · have hok : opEthParse s = .ok t := settle_eq_next_of_stage hexec (by simp [hstage])
    obtain ⟨hheader, hipOff, hipLen, -⟩ := (opEthParse_passed s).of_ok hok
    have hwrites := (opEthParse_within s).of_ok hok
    have hlen := hframe.2
    exact ⟨hipOff, by omega, hwrites.frameIn hframe⟩
  · have hok : opIpv4Parse s = .ok t := settle_eq_next_of_stage hexec (by simp [hstage])
    have hpassed := (opIpv4Parse_passed s).of_ok hok
    have hwrites := (opIpv4Parse_within s).of_ok hok
    obtain ⟨hipOff, hipLen⟩ := (opIpv4Parse_keeps_slice s).of_ok hok
    have hheader := hpassed.header_ge
    have hsegOff := hpassed.segOff_eq
    have hslice := hpassed.slice_le
    exact ⟨hipOff, hipLen, by omega, by omega, hpassed.segLen_le_max, hwrites.frameIn hframe⟩
  · have hok : opTcpParse s = .ok t := settle_eq_next_of_stage hexec (by simp [hstage])
    have hpassed := (opTcpParse_passed s).of_ok hok
    have hwrites := (opTcpParse_within s).of_ok hok
    obtain ⟨hsegOff, hsegLen⟩ := (opTcpParse_keeps_slice s).of_ok hok
    have hheader := hpassed.header_ge
    have hpayOff := hpassed.payOff_eq
    exact ⟨hsegOff, hsegLen, by omega, hpassed.slice_eq, hpassed.payLen_le_max, hwrites.frameIn hframe⟩

/-! ## Reads that stop the block -/

section
variable {s : State} {bs : List Byte} {put : Regs → Nat → Regs} (f : FieldAt)

/-- A field of a header that is not wholly in the slice handed in stops the block (R45, R53, U4). -/
theorem settle_readEth_out (hf : FrameIn s bs) (h : bs.length < f.offset + f.width.bytes) :
    settle (readEth f put s) = .fault (.outOfBounds f.offset f.width.bytes) :=
  congrArg settle (readInto_out hf (.inl h) put)

theorem settle_readIp_out (hf : FrameIn s bs)
    (h : OutOfSlice bs s.regs.ipOff s.regs.ipLen (14 + f.offset) f.width.bytes) :
    settle (readIp f put s) = .fault (.outOfBounds (14 + f.offset) f.width.bytes) :=
  congrArg settle (readInto_out hf h put)

theorem settle_readTcp_out (hf : FrameIn s bs)
    (h : OutOfSlice bs s.regs.segOff s.regs.segLen (s.regs.segOff + f.offset) f.width.bytes) :
    settle (readTcp f put s) = .fault (.outOfBounds (s.regs.segOff + f.offset) f.width.bytes) :=
  congrArg settle (readInto_out hf h put)

end

/-- `PREVIEW.BUILD` with the preview's byte `i` in the payload and in `PV` stores it and goes on. -/
theorem buildOne_in {s : State} {bs : List Byte} (hf : FrameIn s bs) {i : Nat} (hi : i < 64)
    (hin : InSlice bs s.regs.payOff s.regs.payLen (s.regs.payOff + i) 1) :
    ∃ p, buildOne i s = .ok { s with pv := p } := by
  rw [buildOne, memReadIn_in (w := .b1) hf hin]
  exact ⟨_, memWrite_in s hi _⟩

theorem buildOne_outOfSlice {s : State} {bs : List Byte} (hf : FrameIn s bs) {i : Nat}
    (hout : OutOfSlice bs s.regs.payOff s.regs.payLen (s.regs.payOff + i) 1) :
    buildOne i s = .fault (.outOfBounds (s.regs.payOff + i) 1) := by
  rw [buildOne, memReadIn_out (w := .b1) hf hout]

theorem buildOne_beyondPreview {s : State} {bs : List Byte} (hf : FrameIn s bs) {i : Nat} (hi : 64 ≤ i)
    (hin : InSlice bs s.regs.payOff s.regs.payLen (s.regs.payOff + i) 1) :
    buildOne i s = .fault (.previewOutOfRange i) := by
  rw [buildOne, memReadIn_in (w := .b1) hf hin]
  obtain ⟨hlt, -⟩ | ⟨-, h⟩ := memWrite_cases s i
    (previewChar (BitVec.ofNat 8 (Ref.field bs (s.regs.payOff + i) Width.b1.bytes)))
  · omega
  · exact h

/-- The loop of R194 stops in the turn `j` that stops, where every turn before it goes on. -/
theorem buildFrom_fault {s : State} {bs : List Byte} {j : Nat} {f : Fault} (hf : FrameIn s bs) (hj : j ≤ 64)
    (hin : ∀ i, i < j → InSlice bs s.regs.payOff s.regs.payLen (s.regs.payOff + i) 1)
    (hstop : ∀ p, buildOne j { s with pv := p } = .fault f) {n i : Nat} (hij : i ≤ j) (hjn : j < i + n) (p : Preview) :
    buildFrom n i { s with pv := p } = .fault f := by
  induction n generalizing i p with
  | zero => omega
  | succ n ih =>
    rw [buildFrom]
    obtain rfl | hlt := hij.eq_or_lt
    · rw [hstop, Flow.fault_andThen]
    · obtain ⟨q, hq⟩ := buildOne_in (s := { s with pv := p }) hf (hlt.trans_le hj) (hin i hlt)
      rw [hq, Flow.ok_andThen]
      exact ih hlt (by omega) q

/-- A preview longer than the payload or the rest of the frame stops at the first byte it cannot read (U4). -/
theorem previewBuild_outOfBounds {s : State} {bs : List Byte} (hf : FrameIn s bs) {a : Nat}
    (ha : a = max s.regs.payOff (min bs.length (s.regs.payOff + s.regs.payLen)))
    (hlong : a < s.regs.payOff + s.regs.pvLen.toNat) (hle : a ≤ s.regs.payOff + 64) :
    exec .previewBuild s = .fault (.outOfBounds a 1) := by
  obtain ⟨j, rfl⟩ : ∃ j, a = s.regs.payOff + j := Nat.exists_eq_add_of_le (ha ▸ le_max_left _ _)
  have hin : ∀ i, i < j → InSlice bs s.regs.payOff s.regs.payLen (s.regs.payOff + i) 1 := fun i hi => by
    unfold InSlice; omega
  have hout : OutOfSlice bs s.regs.payOff s.regs.payLen (s.regs.payOff + j) 1 := by unfold OutOfSlice; omega
  have hstop : ∀ p, buildOne j { s with pv := p } = .fault (.outOfBounds (s.regs.payOff + j) 1) := fun p =>
    buildOne_outOfSlice (s := { s with pv := p }) hf hout
  exact congrArg settle (buildFrom_fault hf (by omega) hin hstop (Nat.zero_le j) (by omega) s.pv)

/-- A preview longer than `PV` stops at the first byte `PV` does not have (R40, R47). -/
theorem previewBuild_beyondPreview {s : State} {bs : List Byte} (hf : FrameIn s bs) (hlong : 64 < s.regs.pvLen.toNat)
    (hframe : s.regs.payOff + 65 ≤ bs.length) (hpayload : 65 ≤ s.regs.payLen) :
    exec .previewBuild s = .fault (.previewOutOfRange 64) := by
  have hin : ∀ i, i < 65 → InSlice bs s.regs.payOff s.regs.payLen (s.regs.payOff + i) 1 := fun i hi => by
    unfold InSlice; omega
  have hstop : ∀ p, buildOne 64 { s with pv := p } = .fault (.previewOutOfRange 64) := fun p =>
    buildOne_beyondPreview (s := { s with pv := p }) hf le_rfl (hin 64 (by decide))
  exact congrArg settle
    (buildFrom_fault hf le_rfl (fun i hi => hin i (hi.trans (by decide))) hstop (Nat.zero_le 64) (by omega) s.pv)

theorem reportAssemble_beyondPreview {s : State} (hlong : 64 < s.regs.pvLen.toNat) :
    exec .reportAssemble s = .fault (.previewOutOfRange 64) := by
  have hnone : readPreview s.pv s.regs.pvLen.toNat = none := if_neg (not_le.2 hlong)
  show settle (opReportAssemble s) = _
  rw [opReportAssemble, hnone]
  rfl

/-- Settles O46: each extraction is one read beyond its slice, and the preview is read byte by byte. -/
theorem readsOutOfBoundsFault : Obligations.ReadsOutOfBoundsFault := by
  unfold Obligations.ReadsOutOfBoundsFault
  intro s bs hf
  exact ⟨fun h => settle_readEth_out Layout.ethDst hf h, fun h => settle_readEth_out Layout.ethSrc hf h,
    fun h => settle_readEth_out Layout.ethType hf h,
    settle_readIp_out Layout.ipVihl hf, settle_readIp_out Layout.ipTotlen hf, settle_readIp_out Layout.ipProto hf,
    settle_readIp_out Layout.ipSrc hf, settle_readIp_out Layout.ipDst hf,
    settle_readTcp_out Layout.tcpSport hf, settle_readTcp_out Layout.tcpDport hf, settle_readTcp_out Layout.tcpSeq hf,
    settle_readTcp_out Layout.tcpAck hf, settle_readTcp_out Layout.tcpDoff hf, settle_readTcp_out Layout.tcpFlags hf,
    settle_readTcp_out Layout.tcpWin hf,
    fun _ => previewBuild_outOfBounds hf, previewBuild_beyondPreview hf, reportAssemble_beyondPreview⟩

/-! ## What an operation leaves of the two memories -/

/-- The frame and its length are as they were, and `PV_LEN` is still a count from 0 to 64 if it was one (R19, R48). -/
structure FrameKept (s t : State) : Prop where
  fb_eq : t.fb = s.fb
  len_eq : t.len = s.len
  inFlight_eq : t.inFlight = s.inFlight
  pvLen_le : s.regs.pvLen.toNat ≤ 64 → t.regs.pvLen.toNat ≤ 64

/-- The frame and the preview are as they were (R47). -/
structure MemoryKept (s t : State) : Prop extends FrameKept s t where
  pv_eq : t.pv = s.pv
  epoch_eq : t.epoch = s.epoch

/-- The pass is over and its frame gone (R253). -/
structure FrameReleased (t : State) : Prop where
  fb_eq : t.fb = []
  inFlight_eq : t.inFlight = false
  pvLen_le : t.regs.pvLen.toNat ≤ 64

theorem FrameKept.refl (s : State) : FrameKept s s := ⟨rfl, rfl, rfl, id⟩
theorem MemoryKept.refl (s : State) : MemoryKept s s := ⟨.refl s, rfl, rfl⟩

theorem StageWrites.frameKept {s t : State} (h : StageWrites s t) (hpvLen : s.regs.pvLen.toNat ≤ 64 →
    t.regs.pvLen.toNat ≤ 64) : FrameKept s t := ⟨h.fb_eq, h.len_eq, h.inFlight_eq, hpvLen⟩

theorem endPass_released (s : State) : FrameReleased s.endPass := ⟨rfl, rfl, Regs.unwritten_pvLen_le _⟩

theorem takeRaise_released (c : Cause) (s : State) : FrameReleased (takeRaise c s) := endPass_released _

/-- What an operation that does not write the preview leaves: both memories, or the pass's end, after which the preview
holds no value (R24). -/
def MemoryOutcome (s t : State) : Prop :=
  MemoryKept s t ∨ (FrameReleased t ∧ t.pv = Preview.unwritten s.epoch)

/-- What an operation that makes no request leaves: the frame, or the pass's end. -/
def FrameOutcome (s t : State) : Prop := FrameKept s t ∨ FrameReleased t

theorem MemoryOutcome.frameOutcome {s t : State} (h : MemoryOutcome s t) : FrameOutcome s t :=
  h.imp MemoryKept.toFrameKept And.left

theorem settle_memoryOutcome {f : State → Flow} {s t : State} (h : settle (f s) = .next t)
    (hf : Keeps (MemoryKept s) f) : MemoryOutcome s t := by
  have hcarries := hf s (.refl s)
  cases hflow : f s with
  | ok u => rw [hflow] at h hcarries; cases h; exact .inl hcarries
  | raised c u =>
    rw [hflow] at h hcarries; cases h
    exact .inr ⟨takeRaise_released c u, congrArg Preview.unwritten hcarries.epoch_eq⟩
  | fault g => rw [hflow] at h; cases h

/-! ## The operations that do not write the preview -/

section
variable {s : State}

theorem opEthRest_keeps_memory : Keeps (MemoryKept s) opEthRest := .ok fun _ h => { h with }
theorem opEthDispatch_keeps_memory : Keeps (MemoryKept s) opEthDispatch := .andThen .raiseIf (.ok fun _ h => { h with })
theorem opIpHlen_keeps_memory : Keeps (MemoryKept s) opIpHlen := .andThen .raiseIf (.ok fun _ h => { h with })
theorem opIpSlice_keeps_memory : Keeps (MemoryKept s) opIpSlice := .andThen .raiseIf (.ok fun _ h => { h with })
theorem opIpDispatch_keeps_memory : Keeps (MemoryKept s) opIpDispatch := .andThen .raiseIf (.ok fun _ h => { h with })
theorem opTcpFlagset_keeps_memory : Keeps (MemoryKept s) opTcpFlagset := .ok fun _ h => { h with }
theorem opTcpPayload_keeps_memory : Keeps (MemoryKept s) opTcpPayload := .ok fun _ h => { h with }

theorem opPreviewLen_keeps_memory : Keeps (MemoryKept s) opPreviewLen :=
  .ok fun t h => { h with pvLen_le := fun _ => (opPreviewLen_ends t).pvLen_le }

theorem opReportAssemble_keeps_memory : Keeps (MemoryKept s) opReportAssemble := by
  intro t h
  unfold opReportAssemble
  split
  · exact { h with }
  · trivial

theorem opEthParse_keeps_memory : Keeps (MemoryKept s) opEthParse := by
  suffices h : ∀ f ∈ [opEthLenchk, opEthDst, opEthSrc, opEthType, opEthRest, opEthDispatch], Keeps (MemoryKept s) f from
    fun t ht => Keeps.runOps h (t.putStage .eth) { ht with }
  simp only [List.forall_mem_cons, List.not_mem_nil, false_imp_iff, implies_true, and_true]
  exact ⟨.raiseIf, .readEth fun _ _ h => { h with }, .readEth fun _ _ h => { h with }, .readEth fun _ _ h => { h with },
    opEthRest_keeps_memory, opEthDispatch_keeps_memory⟩

theorem opIpv4Parse_keeps_memory : Keeps (MemoryKept s) opIpv4Parse := by
  refine Keeps.runOps ?_
  simp only [List.forall_mem_cons, List.not_mem_nil, false_imp_iff, implies_true, and_true]
  exact ⟨.raiseIf, .readIp fun _ _ h => { h with }, opIpHlen_keeps_memory, .raiseIf, .readIp fun _ _ h => { h with },
    .readIp fun _ _ h => { h with }, .readIp fun _ _ h => { h with }, .readIp fun _ _ h => { h with },
    opIpSlice_keeps_memory, opIpDispatch_keeps_memory⟩

theorem opTcpParse_keeps_memory : Keeps (MemoryKept s) opTcpParse := by
  refine Keeps.runOps ?_
  simp only [List.forall_mem_cons, List.not_mem_nil, false_imp_iff, implies_true, and_true]
  exact ⟨.raiseIf, .readTcp fun _ _ h => { h with }, .readTcp fun _ _ h => { h with }, .readTcp fun _ _ h => { h with },
    .readTcp fun _ _ h => { h with }, .readTcp fun _ _ h => { h with }, .raiseIf, .raiseIf,
    .readTcp fun _ _ h => { h with }, .readTcp fun _ _ h => { h with }, opTcpFlagset_keeps_memory,
    opTcpPayload_keeps_memory⟩

end

theorem emitReport_keeps_memory (s : State) : MemoryKept s s.emitReport where
  fb_eq := s.emitReport_fb
  len_eq := s.emitReport_len
  inFlight_eq := s.emitReport_inFlight
  pvLen_le := s.emitReport_regs ▸ id
  pv_eq := s.emitReport_pv
  epoch_eq := s.emitReport_epoch

/-- Every operation that makes no request and does not contain `PREVIEW.BUILD` leaves both memories as they were, or
ends the pass (R47, R48). -/
theorem exec_memoryOutcome {i : Instr} {s t : State} (h : exec i s = .next t)
    (hi : i ∉ [.framePass, .run, .nextFrame, .render, .previewBuild]) : MemoryOutcome s t := by
  cases i with
  | framePass | run | nextFrame | render | previewBuild => simp at hi
  | emitReport => cases h; exact .inl (emitReport_keeps_memory s)
  | emitDiag | captureError | ethRest | tcpFlagset | flagSyn | flagAck | flagFin | flagRst | flagPsh | flagUrg
  | tcpPayload | previewChar | flagsText | ipv4Text | decText | renderText =>
    cases h; exact .inl { MemoryKept.refl s with }
  | ethLenchk | ipLenchk | ipHlenchk | tcpLenchk | tcpDoffmin | tcpHlenchk => exact settle_memoryOutcome h .raiseIf
  | ethDst | ethSrc | ethType => exact settle_memoryOutcome h (.readEth fun _ _ h => { h with })
  | ipVihl | ipTotlen | ipProto | ipSrc | ipDst => exact settle_memoryOutcome h (.readIp fun _ _ h => { h with })
  | tcpSport | tcpDport | tcpSeq | tcpAck | tcpDoff | tcpFlags | tcpWin =>
    exact settle_memoryOutcome h (.readTcp fun _ _ h => { h with })
  | ethParse => exact settle_memoryOutcome h opEthParse_keeps_memory
  | ethDispatch => exact settle_memoryOutcome h opEthDispatch_keeps_memory
  | ipv4Parse => exact settle_memoryOutcome h opIpv4Parse_keeps_memory
  | ipHlen => exact settle_memoryOutcome h opIpHlen_keeps_memory
  | ipSlice => exact settle_memoryOutcome h opIpSlice_keeps_memory
  | ipDispatch => exact settle_memoryOutcome h opIpDispatch_keeps_memory
  | tcpParse => exact settle_memoryOutcome h opTcpParse_keeps_memory
  | previewLen => exact settle_memoryOutcome (f := opPreviewLen) h opPreviewLen_keeps_memory
  | reportAssemble => exact settle_memoryOutcome h opReportAssemble_keeps_memory

/-- Settles O56: a request loads a frame and leaves the preview; the other operations are `exec_memoryOutcome`'s. -/
theorem onlyPreviewBuildWritesThePreview : Obligations.OnlyPreviewBuildWritesThePreview := by
  unfold Obligations.OnlyPreviewBuildWritesThePreview
  intro i s t hexec hbuild hrender hpass hrun
  by_cases hrequest : i = .nextFrame
  · subst hrequest
    obtain rfl | ⟨-, ⟨_, _, -, rfl⟩ | ⟨_, _, -, rfl⟩⟩ := exec_nextFrame_cases hexec <;> exact .inl rfl
  · obtain hkept | ⟨hreleased, hpv⟩ := exec_memoryOutcome hexec (by simp [*])
    · exact .inl hkept.pv_eq
    · exact .inr ⟨hpv, hreleased.inFlight_eq⟩

/-! ## The operations that write the preview -/

theorem settle_eq_next_of_noRaise {r : Flow} {t : State} (h : settle r = .next t) (hr : r.NoRaise) : r = .ok t := by
  cases r with
  | ok u => cases h; rfl
  | raised c u => exact hr.elim
  | fault f => cases h

theorem previewBuild_frameKept {s t : State} (h : exec .previewBuild s = .next t) : FrameKept s t := by
  have hok : buildFrom s.regs.pvLen.toNat 0 s = .ok t := settle_eq_next_of_noRaise h (buildFrom_noRaise _ _ _)
  have hnone : PreviewPrintable 0 s := fun j _ hj => absurd hj (Nat.not_lt_zero j)
  obtain ⟨hregs, -⟩ := (buildFrom_leads s s.regs.pvLen.toNat 0 s ⟨rfl, rfl, hnone⟩).of_ok hok
  exact ((buildFrom_within _ _ _).of_ok hok).frameKept (hregs ▸ id)

theorem render_frameKept {s t : State} (h : exec .render s = .next t) : FrameKept s t := by
  have hok : opRender s = .ok t := settle_eq_next_of_noRaise h (opRender_noRaise s)
  exact ((opRender_within s).of_ok hok).frameKept fun _ => ((opRender_rendered s).of_ok hok).pvLen_le

/-- The hand-over of a record ends the pass, or leaves the frame in flight with the record pending (R230, R286). -/
theorem finishPass_frameOutcome (s : State) : FrameOutcome s (finishPass s) := by
  by_cases h : s.sink.head? = some .never
  · rw [finishPass_of_never h]; exact .inl { FrameKept.refl s with }
  · rw [finishPass_of_takes h]; exact .inr (endPass_released _)

theorem opStages_pvLen_le (s : State) : (opStages s).Ends fun t => t.regs.pvLen.toNat ≤ 64 := by
  suffices hrun : Leads (fun _ => True) opStages (fun t => t.regs.pvLen.toNat ≤ 64) from hrun s trivial
  refine .cons (fun s _ => (opEthParse_passed s).mono fun _ _ => trivial) ?_
  refine .cons (fun s _ => (opIpv4Parse_passed s).mono fun _ _ => trivial) ?_
  refine .cons (fun s _ => (opTcpParse_passed s).mono fun _ _ => trivial) ?_
  exact .cons (fun s _ => (opRender_rendered s).mono fun _ h => h.pvLen_le) .nil

theorem FrameKept.trans_outcome {s t u : State} (hst : FrameKept s t) (htu : FrameOutcome t u) : FrameOutcome s u := by
  obtain ⟨hfb, hlen, hinFlight, hpvLen⟩ | hreleased := htu
  · exact .inl ⟨hfb.trans hst.fb_eq, hlen.trans hst.len_eq, hinFlight.trans hst.inFlight_eq, hpvLen ∘ hst.pvLen_le⟩
  · exact .inr hreleased

theorem framePass_frameOutcome {s t : State} (h : exec .framePass s = .next t) : FrameOutcome s t := by
  rw [exec_framePass] at h
  cases hflow : opStages s with
  | ok u =>
    rw [hflow] at h
    cases h
    have hkept := ((opStages_within s).of_ok hflow).frameKept fun _ => (opStages_pvLen_le s).of_ok hflow
    exact hkept.trans_outcome (finishPass_frameOutcome u)
  | raised c u => rw [hflow] at h; cases h; exact .inr (takeRaise_released c u)
  | fault f => rw [hflow] at h; cases h

/-- Every operation that makes no request leaves the frame as it was, or ends the pass (R47, R48, R253). -/
theorem exec_frameOutcome {i : Instr} {s t : State} (h : exec i s = .next t) (hnext : i ≠ .nextFrame)
    (hrun : i ≠ .run) : FrameOutcome s t := by
  by_cases hpass : i = .framePass
  · subst hpass; exact framePass_frameOutcome h
  by_cases hrender : i = .render
  · subst hrender; exact .inl (render_frameKept h)
  by_cases hbuild : i = .previewBuild
  · subst hbuild; exact .inl (previewBuild_frameKept h)
  exact (exec_memoryOutcome h (by simp [*])).frameOutcome

/-- Settles O55: every operation but a request leaves the frame or ends the pass, by `exec_frameOutcome`. -/
theorem nothingWritesTheFrame : Obligations.NothingWritesTheFrame := by
  unfold Obligations.NothingWritesTheFrame
  intro i s t hexec hnext hrun
  exact (exec_frameOutcome hexec hnext hrun).imp (fun h => ⟨h.fb_eq, h.len_eq, h.inFlight_eq⟩)
    fun h => ⟨h.fb_eq, h.inFlight_eq⟩

/-! ## The form of the two memories -/

/-- The frame buffer keeps its canonical form, and `PV_LEN` stays within `PV` (R19, R40). -/
def FormKept (s t : State) : Prop :=
  (Memory.wf s.fb = true → Memory.wf t.fb = true) ∧ (s.regs.pvLen.toNat ≤ 64 → t.regs.pvLen.toNat ≤ 64)

theorem FormKept.refl (s : State) : FormKept s s := ⟨id, id⟩

theorem FormKept.trans {s t u : State} (hst : FormKept s t) (htu : FormKept t u) : FormKept s u :=
  ⟨htu.1 ∘ hst.1, htu.2 ∘ hst.2⟩

theorem FrameOutcome.formKept {s t : State} (h : FrameOutcome s t) : FormKept s t := by
  obtain hkept | hreleased := h
  · exact ⟨fun hwf => hkept.fb_eq ▸ hwf, hkept.pvLen_le⟩
  · exact ⟨fun _ => by rw [hreleased.fb_eq]; rfl, fun _ => hreleased.pvLen_le⟩

theorem nextFrame_formKept {s t : State} (h : exec .nextFrame s = .next t) : FormKept s t := by
  obtain rfl | ⟨-, ⟨bs, _, -, rfl⟩ | ⟨_, _, -, rfl⟩⟩ := exec_nextFrame_cases h
  · exact .refl t
  · exact ⟨fun _ => Memory.wf_ofBytes bs, id⟩
  · exact .refl s

/-- `RUN` is made of requests and passes: what each of them does, and one after another, `RUN` does (R231). -/
theorem runLoop_induction {R : State → State → Prop} (hrefl : ∀ s, R s s)
    (htrans : ∀ s t u, R s t → R t u → R s u) (hnext : ∀ s t, exec .nextFrame s = .next t → R s t)
    (hpass : ∀ s t, exec .framePass s = .next t → R s t) {n : Nat} {s t : State} (h : runLoop n s = .next t) :
    R s t := by
  induction n generalizing s with
  | zero => cases h; exact hrefl _
  | succ n ih =>
    have hanswer : exec .nextFrame s = execNextFrame s := rfl
    rw [execNextFrame] at hanswer
    rw [runLoop] at h
    split at h
    · cases h; exact hrefl _
    split at h
    · cases h; exact hrefl _
    · next u hrequest => cases h; exact hnext s _ (by rw [hanswer, hrequest])
    · next u hrequest =>
      have hframe : R s u := hnext s u (by rw [hanswer, hrequest])
      split at h
      · next v hv => exact htrans s u t hframe (htrans u v t (hpass u v hv) (ih h))
      · cases h
      · cases h

/-- Settles O58: a request loads a frame in canonical form, and every other operation leaves the frame or releases it. -/
theorem operationsKeepMemoryForm : Obligations.OperationsKeepMemoryForm := by
  unfold Obligations.OperationsKeepMemoryForm
  intro i s t hexec
  by_cases hnext : i = .nextFrame
  · subst hnext; exact nextFrame_formKept hexec
  by_cases hrun : i = .run
  · subst hrun
    exact runLoop_induction FormKept.refl (fun _ _ _ => FormKept.trans) (fun _ _ => nextFrame_formKept)
      (fun _ _ h => (framePass_frameOutcome h).formKept) hexec
  · exact (exec_frameOutcome hexec hnext hrun).formKept

end Sys2Proof.Machine

/-! SUPPORT. The codes the block decodes (30_encoding.md R66, R67, R72): an operation's word decodes to the operation,
each dispatch test looks at its whole field or its single bit, a placed code is the operation made next, and the status
codes have the layout of R72. -/

namespace Sys2Proof

/-! ## Operation words -/

/-- The ethertype selector tests the whole 16-bit field (R66). -/
theorem decode_ethertype {v : Nat} (h : v < 65536) (rest : List Byte) :
    decode (1 :: (beBytes 2 v ++ rest))
      = if v = 0x0800 then .ok .ipv4Parse rest else .rejected (.ethertypeSkips v) := by
  show decodeEthertype (beBytes 2 v ++ rest) = _
  rw [decodeEthertype, takeValue_beBytes_of_lt h]
  rfl

/-- The protocol selector tests the whole byte (R66). -/
theorem decode_protocol {v : Nat} (h : v < 256) (rest : List Byte) :
    decode (2 :: (beBytes 1 v ++ rest)) = if v = 6 then .ok .tcpParse rest else .rejected (.protocolSkips v) := by
  show decodeProtocol (beBytes 1 v ++ rest) = _
  rw [decodeProtocol, takeValue_beBytes_of_lt h]
  rfl

/-- The bytes of a register's value give it back, where they are enough for its width. -/
theorem takeValue_toNat {n w : Nat} (x : BitVec w) (hw : w ≤ 8 * n) (rest : List Byte) :
    takeValue n (beBytes n x.toNat ++ rest) = some (x.toNat, rest) := by
  refine takeValue_beBytes_of_lt ?_ rest
  calc x.toNat < 2 ^ w := x.isLt
    _ ≤ 2 ^ (8 * n) := Nat.pow_le_pow_right (by decide) hw
    _ = 256 ^ n := Nat.pow_mul 2 8 n

theorem byteCount_le {n v : Nat} (hn : 0 < n) (h : v < 256 ^ n) : byteCount v ≤ n := by
  by_cases hv : v = 0
  · subst hv; exact hn
  · have hlog : v.log2 < 8 * n := (Nat.log2_lt hv).2 (by rwa [Nat.pow_mul])
    unfold byteCount
    omega

/-- The count byte of `DEC_TEXT`'s operand holds the count of an integer of at most 255 bytes (log 10). -/
theorem decodeInteger_encoded {v : Nat} (h : v < 256 ^ 255) (rest : List Byte) :
    decodeInteger (BitVec.ofNat 8 (byteCount v) :: (beBytes (byteCount v) v ++ rest)) = some (v, rest) := by
  have hcount : (BitVec.ofNat 8 (byteCount v)).toNat = byteCount v := by
    rw [BitVec.toNat_ofNat, Nat.mod_eq_of_lt (Nat.lt_succ_of_le (byteCount_le (by decide) h))]
  rw [decodeInteger, hcount, takeValue_beBytes_of_lt (lt_pow_byteCount v)]

theorem decodeReport_encodeReport {r : PacketReport} (h : r.wf = true) (rest : List Byte) :
    decodeReport (encodeReport r ++ rest) = some (r, rest) := by
  obtain ⟨hlen, hmax⟩ : r.preview.length = r.previewLen.toNat ∧ r.previewLen.toNat ≤ Config.previewMax := by
    simpa [PacketReport.wf] using h
  have hfits : r.headerLen.toNat < 64 ∧ r.flags.toNat < 64 ∧ r.previewLen.toNat ≤ Config.previewMax
      ∧ r.previewLen.toNat ≤ (r.preview ++ rest).length :=
    ⟨r.headerLen.isLt, r.flags.isLt, hmax, by simp [hlen]⟩
  have htake : (r.preview ++ rest).take r.previewLen.toNat = r.preview := List.take_left' hlen
  have hdrop : (r.preview ++ rest).drop r.previewLen.toNat = rest := List.drop_left' hlen
  simp only [encodeReport, decodeReport, List.append_assoc, takeValue_toNat, Nat.reduceMul, Nat.reduceLeDiff]
  simp only [if_pos hfits, htake, hdrop, BitVec.ofNat_toNat, BitVec.setWidth_eq]

/-- Settles O1: the words without an operand decode by their codes, and an operand is read back field by field. -/
theorem decodeEncodeRoundTrip : Obligations.DecodeEncodeRoundTrip := by
  unfold Obligations.DecodeEncodeRoundTrip
  intro i rest hwf
  cases i with
  | ipv4Parse => exact decode_ethertype (v := 0x0800) (by decide) rest
  | flagsText flags =>
    have hlt : flags.toNat < 64 := flags.isLt
    show decodeWired (48 :: (beBytes 1 flags.toNat ++ rest)) = _
    simp [decodeWired, takeValue_toNat, hlt]
  | ipv4Text a =>
    show decodeWired (49 :: (beBytes 4 a.toNat ++ rest)) = _
    simp [decodeWired, takeValue_toNat]
  | decText v =>
    have hlt : v < 256 ^ 255 := of_decide_eq_true hwf
    show decodeWired (50 :: BitVec.ofNat 8 (byteCount v) :: (beBytes (byteCount v) v ++ rest)) = _
    simp [decodeWired, decodeInteger_encoded hlt]
  | renderText r =>
    show decodeWired (51 :: (encodeReport r ++ rest)) = _
    simp [decodeWired, decodeReport_encodeReport hwf]
  | _ => rfl

/-! ## Dispatch tests -/

theorem Flag.row_injective : Function.Injective Flag.row := by
  have hfind : ∀ f : Flag, Flag.all.find? (fun g => g.row = f.row) = some f := by rintro ⟨⟩ <;> rfl
  intro f g h
  exact Option.some.inj ((hfind f).symm.trans (h ▸ hfind g))

/-- The rows a flags byte selects are those whose bit is set (R66, R67). -/
theorem row_mem_flagRows (b : Byte) (f : Flag) : f.row ∈ flagRows b ↔ b &&& f.mask ≠ 0 := by
  have hall : f ∈ Flag.all := by cases f <;> decide
  rw [flagRows, List.mem_map_of_injective Flag.row_injective, List.mem_filter]
  simp [hall, Flag.test]

/-- Settles O3: two comparisons of the whole value, and a filter by one bit each. -/
theorem dispatchTestsAreWholeFieldAndSingleBit : Obligations.DispatchTestsAreWholeFieldAndSingleBit := by
  unfold Obligations.DispatchTestsAreWholeFieldAndSingleBit
  exact ⟨fun _ rest h => decode_ethertype h rest, fun _ rest h => decode_protocol h rest, row_mem_flagRows⟩

/-- Settles O2: each code is looked up in the tables of the decoder. -/
theorem tableCodesDecode : Obligations.TableCodesDecode := by
  unfold Obligations.TableCodesDecode
  decide

end Sys2Proof

namespace Sys2Proof.Machine

/-! ## Status codes -/

/-- A code is put together from its three fields, so each field can be cut out of it again (R72). -/
theorem Cause.code_fields (c : Cause) :
    statusClass c.code = c.classField ∧ statusStage c.code = c.stageField ∧ statusCause c.code = c.number := by
  cases c <;> exact ⟨rfl, rfl, rfl⟩

/-- Settles O4, cause by cause. -/
theorem statusCodesHaveTheirLayout : Obligations.StatusCodesHaveTheirLayout := by
  unfold Obligations.StatusCodesHaveTheirLayout
  exact ⟨by decide, Cause.code_fields⟩

/-! ## The flag rows -/

/-- Setting one bit of `FLAGSET` leaves the others (R161). -/
theorem setFlagBit_getLsbD (fs : BitVec 6) {k : Nat} (hk : k < 6) (b : Bool) (j : Nat) :
    (setFlagBit fs k b).getLsbD j = if j = k then b else fs.getLsbD j := by
  have hbit : ((1 : BitVec 6) <<< k).getLsbD j = decide (j = k) := by
    rw [show (1 : BitVec 6) <<< k = BitVec.twoPow 6 k from rfl, BitVec.getLsbD_twoPow]
    simp [hk, eq_comm]
  cases b with
  | true =>
    rw [setFlagBit, if_pos rfl, BitVec.getLsbD_or, hbit]
    by_cases hj : j = k <;> simp [hj]
  | false =>
    rw [setFlagBit, if_neg Bool.false_ne_true, BitVec.getLsbD_and, BitVec.getLsbD_not, hbit]
    by_cases hj : j = k
    · simp [hj]
    · simpa [hj] using fs.lt_of_getLsbD

/-- Settles O21: each row is one `setFlagBit` with its bit test. -/
theorem flagRowsAreIndependent : Obligations.FlagRowsAreIndependent := by
  unfold Obligations.FlagRowsAreIndependent
  intro f i s hrow
  have hindex : f.index < 6 := by cases f <;> decide
  have hexec : exec i s = settle (opFlag f s) := by
    simp only [List.mem_cons, Prod.mk.injEq, List.not_mem_nil, or_false] at hrow
    obtain ⟨rfl, rfl⟩ | ⟨rfl, rfl⟩ | ⟨rfl, rfl⟩ | ⟨rfl, rfl⟩ | ⟨rfl, rfl⟩ | ⟨rfl, rfl⟩ := hrow <;> rfl
  refine ⟨decodeFlag s.regs.tcpFlags s.regs.flagset f, hexec, ?_, fun k hk => ?_⟩
  · rw [decodeFlag, setFlagBit_getLsbD _ hindex, if_pos rfl]
    simp [Flag.test]
  · rw [decodeFlag, setFlagBit_getLsbD _ hindex, if_neg hk]

/-! ## Placed codes -/

/-- Operations made one after another write only what a stage writes. -/
theorem after_writes {fs : List (State → Flow)} (h : ∀ f ∈ fs, ∀ s, (f s).Within s) (s : State) :
    StageWrites s (after fs s) := by
  have hwithin := runOps_within h s
  unfold after
  cases hrun : runOps fs s with
  | ok t => exact hwithin.of_ok hrun
  | raised c t => rw [hrun] at hwithin; exact hwithin
  | fault f => exact .refl s

/-- The operations wired before the flag rows write only what a stage writes. -/
theorem beforeFlags_within : ∀ f ∈ [opEthParse, opIpv4Parse, opTcpLenchk, opTcpSport, opTcpDport, opTcpSeq, opTcpAck,
    opTcpDoff, opTcpDoffmin, opTcpHlenchk, opTcpFlags, opTcpWin], ∀ s, (f s).Within s := by
  simp only [List.forall_mem_cons, List.not_mem_nil, false_imp_iff, implies_true, and_true]
  exact ⟨opEthParse_within, opIpv4Parse_within, fun s => raiseIf_within _ _ s, readTcp_within _ _, readTcp_within _ _,
    readTcp_within _ _, readTcp_within _ _, readTcp_within _ _, fun s => raiseIf_within _ _ s,
    fun s => raiseIf_within _ _ s, readTcp_within _ _, readTcp_within _ _⟩

/-- The four stages write only what a stage writes. -/
theorem stages_within : ∀ f ∈ [opEthParse, opIpv4Parse, opTcpParse, opRender], ∀ s, (f s).Within s := by
  simp only [List.forall_mem_cons, List.not_mem_nil, false_imp_iff, implies_true, and_true]
  exact ⟨opEthParse_within, opIpv4Parse_within, opTcpParse_within, opRender_within⟩

/-- A code is placed with no reset planned (log 11). -/
theorem placeSelector_resetIn (i : Instr) (s : State) : (placeSelector i s).resetIn = [] := by
  cases i with
  | ipv4Parse => exact (after_writes (List.forall_mem_singleton.2 opEthParse_within) _).resetIn_eq
  | tcpParse =>
    exact (after_writes (List.forall_mem_cons.2 ⟨opEthParse_within, List.forall_mem_singleton.2 opIpv4Parse_within⟩)
      _).resetIn_eq
  | emitReport => exact (after_writes stages_within _).resetIn_eq
  | flagSyn | flagAck | flagFin | flagRst | flagPsh | flagUrg => exact (after_writes beforeFlags_within _).resetIn_eq
  | _ => rfl

theorem withFetchWord_of_some {nbits w : Nat} {i : Instr} (h : decodeTableWord nbits w = some i) (s : State) :
    s.withFetchWord nbits w = (placeSelector i s).atOp i := by
  rw [State.withFetchWord, h]; rfl

/-- Settles O6: the placed operation is the one the sequence has come to, and no reset stands before it. -/
theorem placedCodeRunsNext : Obligations.PlacedCodeRunsNext := by
  unfold Obligations.PlacedCodeRunsNext
  intro s nbits w i hdecode
  rw [withFetchWord_of_some hdecode]
  have hreset : ((placeSelector i s).atOp i).resetIn = [] := placeSelector_resetIn i s
  refine ⟨rfl, hreset, fun t hexec => ?_⟩
  rw [step_eq_stepOp hreset]
  exact stepOp_next (nextOp_of_op rfl) hexec

end Sys2Proof.Machine

/-! SUPPORT. What the four stages answer on a frame, said by the reference functions of its bytes (00_scope.md R4): each
stage raises the first condition the reference names, or leaves the registers the reference gives; so a pass sends the
reference's record and status code. -/

namespace Sys2Proof.Machine

/-! ## Fields and nibbles -/

theorem Ref.field_lt (bs : List Byte) (a n : Nat) : Ref.field bs a n < 256 ^ n := by
  refine (beValue_lt _).trans_le (Nat.pow_le_pow_right (by decide) ?_)
  simp

/-- A register as wide as a field holds the field's value. -/
theorem Ref.toNat_field {w n : Nat} (bs : List Byte) (a : Nat) (h : 256 ^ n ≤ 2 ^ w := by decide) :
    (BitVec.ofNat w (Ref.field bs a n)).toNat = Ref.field bs a n := by
  rw [BitVec.toNat_ofNat, Nat.mod_eq_of_lt ((Ref.field_lt bs a n).trans_le h)]

theorem lowNibble_toNat (b : Byte) : (lowNibble b).toNat = b.toNat % 16 := by
  simp [lowNibble, BitVec.extractLsb'_toNat]

theorem highNibble_toNat (b : Byte) : (highNibble b).toNat = b.toNat / 16 := by
  have hb := b.isLt
  rw [highNibble, BitVec.extractLsb'_toNat, Nat.shiftRight_eq_div_pow]
  omega

/-! ## A stage against a reference

A stage's proof goes through its operations in order, one of the lemmas below for each, and names the reference's condition
at each test. Between reads `dsimp only [State.putRegs]` writes the state's record out flat: nested updates would grow
with every read. -/

/-- The stage raises the reference's cause, or, where the reference has none, goes on to `t`. -/
def Flow.Gives (cause : Option Cause) (t : State) (r : Flow) : Prop :=
  match cause with
  | some c => ∃ u, r = .raised c u
  | none => r = .ok t

section
variable {s t : State} {bs : List Byte} {fs : List (State → Flow)} {o : Option Cause}

/-- A test that raises, and what comes after it: the reference names the test's cause first. -/
theorem Flow.Gives.raiseIf_andThen {bad : Bool} {k : State → Flow} {p : Prop} [Decidable p] {c : Cause}
    (hp : bad = true ↔ p) (h : ¬p → (k s).Gives o t) :
    ((raiseIf bad c s).andThen k).Gives (if p then some c else o) t := by
  split
  · next hpos => rw [hp.2 hpos]; exact ⟨s, rfl⟩
  · next hneg =>
    rw [Bool.eq_false_iff.2 (mt hp.1 hneg)]
    exact h hneg

/-- The next operation is a test that raises. -/
theorem Flow.Gives.test {bad : State → Bool} {p : Prop} [Decidable p] {c : Cause} (hp : bad s = true ↔ p)
    (h : ¬p → (runOps fs s).Gives o t) :
    (runOps ((fun s => raiseIf (bad s) c s) :: fs) s).Gives (if p then some c else o) t :=
  .raiseIf_andThen hp h

/-- The next operation is a test that raises and, where it does not, a write. -/
theorem Flow.Gives.testThen {bad : State → Bool} {g : State → State} {p : Prop} [Decidable p] {c : Cause}
    (hp : bad s = true ↔ p) (h : ¬p → (runOps fs (g s)).Gives o t) :
    (runOps ((fun s => (raiseIf (bad s) c s).andThen fun t => .ok (g t)) :: fs) s).Gives
      (if p then some c else o) t := by
  have hassoc : ((raiseIf (bad s) c s).andThen fun t => .ok (g t)).andThen (runOps fs)
      = (raiseIf (bad s) c s).andThen fun t => runOps fs (g t) := by cases bad s <;> rfl
  rw [runOps_cons, hassoc]
  exact .raiseIf_andThen hp h

/-- The next operation is a write. -/
theorem Flow.Gives.write {g : State → State} (h : (runOps fs (g s)).Gives o t) :
    (runOps ((fun s => .ok (g s)) :: fs) s).Gives o t := h

/-- The next operation extracts a field that lies in the stage's slice. -/
theorem Flow.Gives.readEth {f : FieldAt} {put : Regs → Nat → Regs} (hf : FrameIn s bs) (hlen : 14 ≤ bs.length)
    (h : (runOps fs (s.putRegs (put s.regs (Ref.field bs f.offset f.width.bytes)))).Gives o t)
    (hfield : f.offset + f.width.bytes ≤ 14 := by decide) :
    (runOps (Machine.readEth f put :: fs) s).Gives o t := by
  have hin : InSlice bs 0 s.len f.offset f.width.bytes := by
    have := hf.2
    unfold InSlice; omega
  rw [runOps_cons, Machine.readEth, readInto_in hf hin]
  exact h

theorem Flow.Gives.readIp {f : FieldAt} {put : Regs → Nat → Regs} (hf : FrameIn s bs) (hoff : s.regs.ipOff = 14)
    (hlen : s.regs.ipLen = bs.length - 14) (h34 : 34 ≤ bs.length)
    (h : (runOps fs (s.putRegs (put s.regs (Ref.field bs (14 + f.offset) f.width.bytes)))).Gives o t)
    (hfield : f.offset + f.width.bytes ≤ 20 := by decide) :
    (runOps (Machine.readIp f put :: fs) s).Gives o t := by
  have hin : InSlice bs s.regs.ipOff s.regs.ipLen (14 + f.offset) f.width.bytes := by unfold InSlice; omega
  rw [runOps_cons, Machine.readIp, Config.ethHdrLen, readInto_in hf hin]
  exact h

theorem Flow.Gives.readTcp {f : FieldAt} {put : Regs → Nat → Regs} (hf : FrameIn s bs)
    (hslice : s.regs.segOff + s.regs.segLen ≤ bs.length) (h20 : 20 ≤ s.regs.segLen)
    (h : (runOps fs (s.putRegs (put s.regs (Ref.field bs (s.regs.segOff + f.offset) f.width.bytes)))).Gives o t)
    (hfield : f.offset + f.width.bytes ≤ 20 := by decide) :
    (runOps (Machine.readTcp f put :: fs) s).Gives o t := by
  have hin : InSlice bs s.regs.segOff s.regs.segLen (s.regs.segOff + f.offset) f.width.bytes := by
    unfold InSlice; omega
  rw [runOps_cons, Machine.readTcp, readInto_in hf hin]
  exact h

end

/-! ## The Ethernet stage -/

/-- What the Ethernet stage leaves of a frame it passes (R102 to R106). -/
def State.afterEth (s : State) (bs : List Byte) : State :=
  { s with
    stage := .ip
    regs := { s.regs with
      ethDst := BitVec.ofNat 48 (Ref.field bs 0 6)
      ethSrc := BitVec.ofNat 48 (Ref.field bs 6 6)
      ethType := BitVec.ofNat 16 (Ref.field bs 12 2)
      ipOff := 14
      ipLen := bs.length - 14 } }

theorem opEthParse_gives {s : State} {bs : List Byte} (hf : FrameIn s bs) :
    (opEthParse s).Gives (Ref.ethCause bs) (s.afterEth bs) := by
  have hlen := hf.2
  have hstage : FrameIn (s.putStage .eth) bs := hf
  have htype : ((BitVec.ofNat 16 (Ref.ethertype bs) != Config.ethertypeIpv4) = true) ↔ Ref.ethertype bs ≠ 0x0800 := by
    rw [bne_iff_ne, ne_eq, ← BitVec.toNat_inj, Ref.ethertype, Ref.toNat_field]
    rfl
  refine .test (p := bs.length < 14) (by simp [hlen, Config.ethHdrLen]) fun h14 => ?_
  have h14 : 14 ≤ bs.length := not_lt.1 h14
  refine .readEth hstage h14 ?_
  refine .readEth hstage h14 ?_
  refine .readEth hstage h14 ?_
  refine .write ?_
  refine .testThen (p := Ref.ethertype bs ≠ 0x0800) htype fun _ => ?_
  show Flow.ok _ = Flow.ok _
  rw [State.afterEth, ← hlen, ← guardedSub_of_le .ipLen (hlen ▸ h14)]
  rfl

/-! ## The IPv4 stage -/

/-- What the IPv4 stage leaves of a frame it passes (R122 to R130). -/
def State.afterIp (s : State) (bs : List Byte) : State :=
  { s with
    stage := .tcp
    regs := { s.regs with
      ipVihl := BitVec.ofNat 8 (Ref.field bs 14 1)
      ipHlen := Ref.ipHlen bs
      ipTotlen := BitVec.ofNat 16 (Ref.totlen bs)
      ipProto := BitVec.ofNat 8 (Ref.proto bs)
      ipSrc := BitVec.ofNat 32 (Ref.field bs 26 4)
      ipDst := BitVec.ofNat 32 (Ref.field bs 30 4)
      segOff := Ref.segOff bs
      segLen := Ref.segLen bs } }

theorem opIpv4Parse_gives {s : State} {bs : List Byte} (hf : FrameIn s bs) (h14 : 14 ≤ bs.length)
    (hoff : s.regs.ipOff = 14) (hlen : s.regs.ipLen = bs.length - 14) :
    (opIpv4Parse s).Gives (Ref.ipCause bs) (s.afterIp bs) := by
  have hihl : (lowNibble (BitVec.ofNat 8 (Ref.field bs 14 1))).toNat * 4 = Ref.ipHlen bs := by
    rw [lowNibble_toNat, Ref.toNat_field, Ref.ipHlen]
  have htotal : (BitVec.ofNat 16 (Ref.totlen bs)).toNat = Ref.totlen bs := Ref.toNat_field bs 16
  have hproto : ((BitVec.ofNat 8 (Ref.proto bs) != Config.ipProtoTcp) = true) ↔ Ref.proto bs ≠ 6 := by
    rw [bne_iff_ne, ne_eq, ← BitVec.toNat_inj, Ref.proto, Ref.toNat_field]
    rfl
  refine .test (p := bs.length - 14 < 20) (by simp [hlen, Config.ipMinHdr]) fun h20 => ?_
  have h34 : 34 ≤ bs.length := by omega
  refine .readIp hf hoff hlen h34 ?_
  dsimp only [State.putRegs]
  refine .testThen (p := Ref.ipHlen bs < 20) (decide_eq_true_iff.trans ?_) fun hihlMin => ?_
  · show (lowNibble (BitVec.ofNat 8 (Ref.field bs 14 1))).toNat < 5 ↔ _
    omega
  refine .test (p := bs.length - 14 < Ref.ipHlen bs) (decide_eq_true_iff.trans ?_) fun hheader => ?_
  · rw [← hihl, ← hlen]; rfl
  refine .readIp hf hoff hlen h34 ?_
  refine .readIp hf hoff hlen h34 ?_
  dsimp only [State.putRegs]
  refine .readIp hf hoff hlen h34 ?_
  refine .readIp hf hoff hlen h34 ?_
  dsimp only [State.putRegs]
  refine .testThen (p := Ref.totlen bs < Ref.ipHlen bs) (decide_eq_true_iff.trans ?_) fun _ => ?_
  · rw [← hihl, ← htotal]; rfl
  refine .testThen (p := Ref.proto bs ≠ 6) hproto fun _ => ?_
  have hsegLen : Ref.segLen bs = min ((BitVec.ofNat 16 (Ref.totlen bs)).toNat - Ref.ipHlen bs)
      (guardedSub .segLen s.regs.ipLen (Ref.ipHlen bs)) := by
    rw [htotal, hlen, guardedSub_of_le _ (not_lt.1 hheader), Ref.segLen]
  show Flow.ok _ = Flow.ok _
  rw [State.afterIp, hsegLen, Ref.segOff, ← hihl]
  rfl

/-! ## The TCP stage -/

/-- What the TCP stage leaves of a segment it passes (R152 to R162). -/
def State.afterTcp (s : State) (bs : List Byte) : State :=
  { s with
    stage := .render
    regs := { s.regs with
      tcpSport := BitVec.ofNat 16 (Ref.field bs s.regs.segOff 2)
      tcpDport := BitVec.ofNat 16 (Ref.field bs (s.regs.segOff + 2) 2)
      tcpSeq := BitVec.ofNat 32 (Ref.field bs (s.regs.segOff + 4) 4)
      tcpAck := BitVec.ofNat 32 (Ref.field bs (s.regs.segOff + 8) 4)
      tcpDoff := BitVec.ofNat 4 (Ref.doffAt bs s.regs.segOff)
      tcpHlen := Ref.doffAt bs s.regs.segOff * 4
      tcpFlags := BitVec.ofNat 8 (Ref.field bs (s.regs.segOff + 13) 1)
      tcpWin := BitVec.ofNat 16 (Ref.field bs (s.regs.segOff + 14) 2)
      flagset := Ref.flagset (Ref.field bs (s.regs.segOff + 13) 1)
      payOff := s.regs.segOff + Ref.doffAt bs s.regs.segOff * 4
      payLen := s.regs.segLen - Ref.doffAt bs s.regs.segOff * 4 } }

/-- The six bit tests are the six bits R161 writes out. -/
theorem decodeFlags_eq (flags : Byte) : decodeFlags flags = Ref.flagset flags.toNat := by
  revert flags
  decide

theorem opTcpParse_gives {s : State} {bs : List Byte} (hf : FrameIn s bs)
    (hslice : s.regs.segOff + s.regs.segLen ≤ bs.length) :
    (opTcpParse s).Gives (Ref.tcpCauseAt bs s.regs.segOff s.regs.segLen) (s.afterTcp bs) := by
  have hdoff : (highNibble (BitVec.ofNat 8 (Ref.field bs (s.regs.segOff + 12) 1))).toNat
      = Ref.doffAt bs s.regs.segOff := by
    rw [highNibble_toNat, Ref.toNat_field, Ref.doffAt]
  have hnibble : highNibble (BitVec.ofNat 8 (Ref.field bs (s.regs.segOff + 12) 1))
      = BitVec.ofNat 4 (Ref.doffAt bs s.regs.segOff) := by
    rw [← hdoff, BitVec.ofNat_toNat, BitVec.setWidth_eq]
  have hflags : decodeFlags (BitVec.ofNat 8 (Ref.field bs (s.regs.segOff + 13) 1))
      = Ref.flagset (Ref.field bs (s.regs.segOff + 13) 1) := by
    rw [decodeFlags_eq, Ref.toNat_field]
  refine .test (p := s.regs.segLen < 20) decide_eq_true_iff fun h20 => ?_
  have h20 : 20 ≤ s.regs.segLen := not_lt.1 h20
  refine .readTcp hf hslice h20 ?_
  refine .readTcp hf hslice h20 ?_
  dsimp only [State.putRegs]
  refine .readTcp hf hslice h20 ?_
  refine .readTcp hf hslice h20 ?_
  refine .readTcp hf hslice h20 ?_
  dsimp only [State.putRegs]
  refine .test (p := Ref.doffAt bs s.regs.segOff < 5) (decide_eq_true_iff.trans ?_) fun _ => ?_
  · rw [← hdoff]; rfl
  refine .test (p := s.regs.segLen < Ref.doffAt bs s.regs.segOff * 4) (decide_eq_true_iff.trans ?_) fun hheader => ?_
  · rw [← hdoff]; rfl
  refine .readTcp hf hslice h20 ?_
  refine .readTcp hf hslice h20 ?_
  dsimp only [State.putRegs]
  refine .write ?_
  refine .write ?_
  show Flow.ok _ = Flow.ok _
  rw [State.afterTcp, ← guardedSub_of_le .payLen (not_lt.1 hheader), ← hflags, ← hnibble, ← hdoff]
  rfl

/-! ## The report stage -/

/-- A byte of the frame as a field of one byte. -/
theorem Ref.field_one {bs : List Byte} {a : Nat} {b : Byte} (h : bs[a]? = some b) : Ref.field bs a 1 = b.toNat := by
  obtain ⟨ha, rfl⟩ := List.getElem?_eq_some_iff.1 h
  rw [Ref.field, List.drop_eq_getElem_cons ha, List.take_succ_cons, List.take_zero]
  simp [beValue]

/-- `p` is `q` with the substituted payload bytes `i` to `n - 1` written, the payload starting at `off` (R194). -/
def PreviewWritten (bs : List Byte) (off i n : Nat) (q p : Preview) : Prop :=
  (∀ j b, i ≤ j → j < n → bs[off + j]? = some b → p[j]? = some (previewChar b))
    ∧ ∀ j, j < i ∨ n ≤ j → p[j]? = q[j]?

/-- The loop of R194 on payload bytes inside the frame writes them and goes on. -/
theorem buildFrom_written {s : State} {bs : List Byte} {i k : Nat} (hf : FrameIn s bs) (h64 : i + k ≤ 64)
    (hpay : i + k ≤ s.regs.payLen) (hframe : s.regs.payOff + (i + k) ≤ bs.length) (q : Preview) :
    ∃ p, buildFrom k i { s with pv := q } = .ok { s with pv := p }
      ∧ PreviewWritten bs s.regs.payOff i (i + k) q p := by
  induction k generalizing i q with
  | zero => exact ⟨q, rfl, fun j b _ _ => by omega, fun _ _ => rfl⟩
  | succ k ih =>
    have hi : i < 64 := by omega
    have hin : InSlice bs s.regs.payOff s.regs.payLen (s.regs.payOff + i) 1 := by unfold InSlice; omega
    have hbyte : bs[s.regs.payOff + i]? = some bs[s.regs.payOff + i] := List.getElem?_eq_getElem (by omega)
    have hone : buildOne i { s with pv := q }
        = .ok { s with pv := q.set i (previewChar bs[s.regs.payOff + i]) hi } := by
      rw [buildOne, memReadIn_in (s := { s with pv := q }) (w := .b1) hf hin]
      simp only [Width.bytes, Ref.field_one hbyte, BitVec.ofNat_toNat, BitVec.setWidth_eq, memWrite_in _ hi]
    rw [show i + (k + 1) = i + 1 + k by omega] at *
    obtain ⟨p, hp, hwrites, hkeeps⟩ := ih h64 hpay hframe (q.set i (previewChar bs[s.regs.payOff + i]) hi)
    refine ⟨p, by rw [buildFrom, hone, Flow.ok_andThen, hp], fun j b hij hj hb => ?_, fun j hj => ?_⟩
    · obtain rfl | hlt := hij.eq_or_lt
      · cases hbyte.symm.trans hb
        rw [hkeeps i (.inl (by omega))]
        simp [hi]
      · exact hwrites j b hlt hj hb
    · rw [hkeeps j (by omega), Vector.getElem?_set_ne hi (by omega)]

/-- `PREVIEW.BUILD` with the preview inside the payload and the payload's bytes inside the frame (R194). -/
theorem opPreviewBuild_written {s : State} {bs : List Byte} (hf : FrameIn s bs) (h64 : s.regs.pvLen.toNat ≤ 64)
    (hpay : s.regs.pvLen.toNat ≤ s.regs.payLen) (hframe : s.regs.payOff + s.regs.pvLen.toNat ≤ bs.length) :
    ∃ p, opPreviewBuild s = .ok { s with pv := p }
      ∧ PreviewWritten bs s.regs.payOff 0 s.regs.pvLen.toNat s.pv p := by
  have h := buildFrom_written (i := 0) (k := s.regs.pvLen.toNat) hf
  rw [Nat.zero_add] at h
  exact h h64 hpay hframe s.pv

/-- The preview read back is the reference's (R191 to R194). -/
theorem PreviewWritten.toList_take {bs : List Byte} {off len : Nat} {q p : Preview}
    (h : PreviewWritten bs off 0 (min len 64) q p) (hframe : off + len ≤ bs.length) :
    p.toList.take (min len 64) = Ref.preview ((bs.drop off).take len) := by
  obtain ⟨hwrites, -⟩ := h
  refine List.ext_getElem? fun j => ?_
  by_cases hj : j < min len 64
  · have hbyte : bs[off + j]? = some bs[off + j] := List.getElem?_eq_getElem (by omega)
    have hp : p.toList[j]? = some (previewChar bs[off + j]) := by
      rw [← hwrites j _ (Nat.zero_le j) hj hbyte]; simp
    rw [List.getElem?_take_of_lt hj, hp]
    rw [Ref.preview, List.getElem?_map, List.getElem?_take_of_lt (by omega), List.getElem?_take_of_lt (by omega),
      List.getElem?_drop, hbyte]
    rfl
  · rw [List.getElem?_eq_none (by simp; omega), List.getElem?_eq_none (by simp [Ref.preview]; omega)]

/-- `PV_LEN` set (R192). -/
def State.previewSized (s : State) : State :=
  s.putRegs { s.regs with pvLen := BitVec.ofNat 7 (min s.regs.payLen 64) }

theorem State.previewSized_pvLen (s : State) : s.previewSized.regs.pvLen.toNat = min s.regs.payLen 64 := by
  show (BitVec.ofNat 7 (min s.regs.payLen 64)).toNat = _
  rw [BitVec.toNat_ofNat, Nat.mod_eq_of_lt (by omega)]

/-- What the report stage leaves of a payload in the frame, with `p` the preview written (R190 to R194). -/
def State.afterRender (s : State) (bs : List Byte) (p : Preview) : State :=
  { s with
    status := 0x00
    pv := p
    regs := { s.regs with
      pvLen := BitVec.ofNat 7 (min s.regs.payLen 64)
      report :=
        { ipSrc := s.regs.ipSrc
          ipDst := s.regs.ipDst
          ipTotalLength := s.regs.ipTotlen
          srcPort := s.regs.tcpSport
          dstPort := s.regs.tcpDport
          seq := s.regs.tcpSeq
          ack := s.regs.tcpAck
          headerLen := BitVec.ofNat 6 s.regs.tcpHlen
          window := s.regs.tcpWin
          flags := s.regs.flagset
          payloadLen := BitVec.ofNat 16 s.regs.payLen
          previewLen := BitVec.ofNat 7 (min s.regs.payLen 64)
          preview := Ref.preview ((bs.drop s.regs.payOff).take s.regs.payLen) } } }

theorem opRender_eq {s : State} {bs : List Byte} (hf : FrameIn s bs)
    (hframe : s.regs.payOff + s.regs.payLen ≤ bs.length) (hheader : s.regs.tcpHlen < 64)
    (hpay : s.regs.payLen < 65536) :
    ∃ p, opRender s = .ok (s.afterRender bs p) ∧ PreviewWritten bs s.regs.payOff 0 (min s.regs.payLen 64) s.pv p := by
  have hpvLen := s.previewSized_pvLen
  have hlen : opPreviewLen s = .ok s.previewSized := rfl
  obtain ⟨p, hbuild, hwritten⟩ : ∃ p, opPreviewBuild s.previewSized = .ok { s.previewSized with pv := p }
      ∧ PreviewWritten bs s.regs.payOff 0 (min s.regs.payLen 64) s.pv p := by
    rw [← hpvLen]
    refine opPreviewBuild_written (s := s.previewSized) hf (hpvLen ▸ min_le_right _ _) (hpvLen ▸ min_le_left _ _) ?_
    rw [hpvLen]
    exact (Nat.add_le_add_left (min_le_left _ _) _).trans hframe
  have hassemble : opReportAssemble { s.previewSized with pv := p } = .ok ({ s.previewSized with pv := p }.putRegs
      { s.previewSized.regs with
        report := assemble s.previewSized.regs (Ref.preview ((bs.drop s.regs.payOff).take s.regs.payLen)) }) := by
    simp only [opReportAssemble, hpvLen, readPreview_in p (min_le_right _ 64), hwritten.toList_take hframe]
  refine ⟨p, ?_, hwritten⟩
  simp only [opRender, runOps_cons, runOps_nil, hlen, Flow.ok_andThen, hbuild, hassemble]
  rw [State.afterRender, ← narrow_of_lt (w := 6) .tcpHlen hheader, ← narrow_of_lt (w := 16) .payLen hpay]
  rfl

/-! ## The reference's cause -/

/-- The first condition a frame meets in the order of R252, if any. -/
def Ref.cause (bs : List Byte) : Option Cause :=
  (Ref.ethCause bs).or ((Ref.ipCause bs).or (Ref.tcpCauseAt bs (Ref.segOff bs) (Ref.segLen bs)))

theorem Ref.verdict_eq (bs : List Byte) : Ref.verdict bs = (Ref.cause bs).getD .report := by
  unfold Ref.verdict Ref.cause
  cases Ref.ethCause bs with
  | some c => rfl
  | none =>
    cases Ref.ipCause bs with
    | some c => rfl
    | none => cases Ref.tcpCauseAt bs (Ref.segOff bs) (Ref.segLen bs) <;> rfl

/-- No stage raises the cause of a report. -/
theorem Ref.cause_ne_report (bs : List Byte) : Ref.cause bs ≠ some .report := by
  have heth : Ref.ethCause bs ≠ some .report := by unfold Ref.ethCause; split_ifs <;> simp
  have hip : Ref.ipCause bs ≠ some .report := by unfold Ref.ipCause; split_ifs <;> simp
  have htcp (off len : Nat) : Ref.tcpCauseAt bs off len ≠ some .report := by
    unfold Ref.tcpCauseAt; split_ifs <;> simp
  simp [Ref.cause, Option.or_eq_some_iff, heth, hip, htcp]

theorem Ref.verdict_eq_report_iff {bs : List Byte} : Ref.verdict bs = .report ↔ Ref.cause bs = none := by
  rw [Ref.verdict_eq]
  cases h : Ref.cause bs with
  | none => simp
  | some c =>
    simp only [Option.getD_some, reduceCtorEq, iff_false]
    rintro rfl
    exact Ref.cause_ne_report bs h

theorem ite_some_eq_none_iff {α : Type} {p : Prop} [Decidable p] {c : α} {o : Option α} :
    (if p then some c else o) = none ↔ ¬ p ∧ o = none := by
  split_ifs with h <;> simp [h]

theorem Ref.ethCause_eq_none_iff {bs : List Byte} :
    Ref.ethCause bs = none ↔ 14 ≤ bs.length ∧ Ref.ethertype bs = 0x0800 := by
  simp [Ref.ethCause, ite_some_eq_none_iff]

theorem Ref.ipCause_eq_none_iff {bs : List Byte} :
    Ref.ipCause bs = none ↔ 20 ≤ bs.length - 14 ∧ 20 ≤ Ref.ipHlen bs ∧ Ref.ipHlen bs ≤ bs.length - 14
      ∧ Ref.ipHlen bs ≤ Ref.totlen bs ∧ Ref.proto bs = 6 := by
  simp [Ref.ipCause, ite_some_eq_none_iff]

theorem Ref.tcpCauseAt_eq_none_iff {bs : List Byte} {off len : Nat} :
    Ref.tcpCauseAt bs off len = none ↔ 20 ≤ len ∧ 5 ≤ Ref.doffAt bs off ∧ Ref.doffAt bs off * 4 ≤ len := by
  simp [Ref.tcpCauseAt, ite_some_eq_none_iff]

/-- A frame passes every check exactly when no stage names a cause. -/
theorem Ref.cause_eq_none_iff {bs : List Byte} :
    Ref.cause bs = none
      ↔ Ref.ethCause bs = none ∧ Ref.ipCause bs = none ∧ Ref.tcpCauseAt bs (Ref.segOff bs) (Ref.segLen bs) = none := by
  simp [Ref.cause]

/-- The segment lies in a frame that passes the IPv4 stage (R53, R129). -/
theorem Ref.segment_le {bs : List Byte} (h : Ref.ipCause bs = none) : Ref.segOff bs + Ref.segLen bs ≤ bs.length := by
  obtain ⟨h20, -, hheader, -, -⟩ := Ref.ipCause_eq_none_iff.1 h
  have hsegLen : Ref.segLen bs ≤ bs.length - 14 - Ref.ipHlen bs := min_le_right _ _
  rw [Ref.segOff]
  omega

theorem Ref.segLen_lt (bs : List Byte) : Ref.segLen bs < 65536 := by
  have htotal : Ref.totlen bs < 65536 := Ref.field_lt bs 16 2
  have hle : Ref.segLen bs ≤ Ref.totlen bs - Ref.ipHlen bs := min_le_left _ _
  omega

theorem Ref.tcpHlen_lt (bs : List Byte) : Ref.tcpHlen bs < 64 := by
  have hfield := Ref.field_lt bs (Ref.segOff bs + 12) 1
  rw [Ref.tcpHlen, Ref.doffAt]
  omega

/-- In a frame that passes every check the payload ends where the segment does (R162). -/
theorem Ref.payload_end {bs : List Byte} (h : Ref.cause bs = none) :
    Ref.payOff bs + Ref.payLen bs = Ref.segOff bs + Ref.segLen bs := by
  obtain ⟨-, -, htcp⟩ := Ref.cause_eq_none_iff.1 h
  obtain ⟨-, -, (hheader : Ref.tcpHlen bs ≤ Ref.segLen bs)⟩ := Ref.tcpCauseAt_eq_none_iff.1 htcp
  rw [Ref.payOff, Ref.payLen]
  omega

/-- The payload lies in a frame that passes every check (R53). -/
theorem Ref.payload_le {bs : List Byte} (h : Ref.cause bs = none) : Ref.payOff bs + Ref.payLen bs ≤ bs.length := by
  obtain ⟨-, hip, -⟩ := Ref.cause_eq_none_iff.1 h
  exact (Ref.payload_end h).trans_le (Ref.segment_le hip)

/-! ## The pass -/

/-- One stage after another: the first that raises names the cause (R230, R252). -/
theorem Flow.Gives.cons {f : State → Flow} {fs : List (State → Flow)} {o₁ o₂ : Option Cause} {s t u : State}
    (hf : (f s).Gives o₁ t) (hfs : o₁ = none → (runOps fs t).Gives o₂ u) : (runOps (f :: fs) s).Gives (o₁.or o₂) u := by
  rw [runOps_cons]
  cases o₁ with
  | some c =>
    obtain ⟨v, hv⟩ := hf
    rw [hv]
    exact ⟨v, rfl⟩
  | none =>
    rw [show f s = .ok t from hf]
    exact hfs rfl

/-- What the three parsing stages leave of a frame they pass. -/
def State.afterParse (s : State) (bs : List Byte) : State := ((s.afterEth bs).afterIp bs).afterTcp bs

section
variable {s : State} {bs : List Byte} (hf : FrameIn s bs)
include hf

theorem parse_gives : (runOps [opEthParse, opIpv4Parse, opTcpParse] s).Gives (Ref.cause bs) (s.afterParse bs) := by
  refine (opEthParse_gives hf).cons fun heth => ?_
  refine (opIpv4Parse_gives (s := s.afterEth bs) hf (Ref.ethCause_eq_none_iff.1 heth).1 rfl rfl).cons fun hip => ?_
  have htcp := opTcpParse_gives (s := (s.afterEth bs).afterIp bs) hf (Ref.segment_le hip)
  rwa [runOps_cons, show runOps [] = Flow.ok from rfl, Flow.andThen_ok]

/-- The stages raise the first condition the frame meets (R252). -/
theorem opStages_raised {c : Cause} (h : Ref.cause bs = some c) : ∃ t, opStages s = .raised c t := by
  have hparse := parse_gives hf
  rw [h] at hparse
  obtain ⟨t, ht⟩ := hparse
  refine ⟨t, ?_⟩
  show runOps ([opEthParse, opIpv4Parse, opTcpParse] ++ [opRender]) s = _
  rw [runOps_append, ht, Flow.raised_andThen]

/-- The stages pass a frame that meets none, and leave its record (R191). -/
theorem opStages_ok (h : Ref.cause bs = none) :
    ∃ p, opStages s = .ok ((s.afterParse bs).afterRender bs p) := by
  have hparse := parse_gives hf
  rw [h] at hparse
  obtain ⟨p, hrender, -⟩ := opRender_eq (s := s.afterParse bs) hf (Ref.payload_le h) (Ref.tcpHlen_lt bs)
    ((Nat.sub_le _ _).trans_lt (Ref.segLen_lt bs))
  refine ⟨p, ?_⟩
  show runOps ([opEthParse, opIpv4Parse, opTcpParse] ++ [opRender]) s = _
  rw [runOps_append, show runOps _ s = _ from hparse, Flow.ok_andThen, runOps_cons, hrender]
  rfl

end

/-- The record the stages leave is the reference's (R191). -/
theorem State.afterRender_report (s : State) (bs : List Byte) (p : Preview) :
    ((s.afterParse bs).afterRender bs p).regs.report = Ref.report bs := rfl

/-- The records a pass on the frame sends: the reference's, or none (R230, R253). -/
def Ref.records (bs : List Byte) : List PacketReport := if Ref.verdict bs = .report then [Ref.report bs] else []

/-- The pass has sent the frame's record, taken or left pending, and its status code (R230, R253, R286). -/
structure PassSends (s : State) (bs : List Byte) (t : State) : Prop where
  records_eq : t.reportOut ++ t.pending.toList = s.reportOut ++ Ref.records bs
  status_eq : t.status = (Ref.verdict bs).code
  diagOut_eq : t.pending = none → t.diagOut = s.diagOut ++ [(Ref.verdict bs).code]

/-- A pass on a frame that meets a condition drops it (R253). -/
theorem framePass_dropped {s : State} {bs : List Byte} (hf : FrameIn s bs) {c : Cause} (h : Ref.cause bs = some c) :
    ∃ u, StageWrites s u ∧ exec .framePass s = .next (takeRaise c u) := by
  obtain ⟨u, hu⟩ := opStages_raised hf h
  have hwrites := opStages_within s
  rw [hu] at hwrites
  exact ⟨u, hwrites, by rw [exec_framePass, hu]; rfl⟩

/-- A pass on a frame that meets none hands its record over (R230). -/
theorem framePass_reported {s : State} {bs : List Byte} (hf : FrameIn s bs) (h : Ref.cause bs = none) :
    ∃ u, StageWrites s u ∧ u.regs.report = Ref.report bs ∧ u.status = Cause.report.code
      ∧ exec .framePass s = .next (finishPass u) := by
  obtain ⟨p, hp⟩ := opStages_ok hf h
  exact ⟨_, (opStages_within s).of_ok hp, s.afterRender_report bs p, rfl, by rw [exec_framePass, hp]; rfl⟩

theorem finishPass_status (s : State) : (finishPass s).status = s.status := by
  unfold finishPass afterReport
  split <;> simp

theorem finishPass_diagOut {s : State} (h : (finishPass s).pending = none) :
    (finishPass s).diagOut = s.diagOut ++ [s.status] := by
  by_cases hnever : s.sink.head? = some .never
  · rw [finishPass_of_never hnever] at h; cases h
  · rw [finishPass_of_takes hnever]; rfl

/-- A pass sends what the reference says of its frame. -/
theorem framePass_sends {s : State} {bs : List Byte} (hf : FrameIn s bs) :
    ∃ t, exec .framePass s = .next t ∧ PassSends s bs t := by
  cases h : Ref.cause bs with
  | some c =>
    have hv : Ref.verdict bs = c := by rw [Ref.verdict_eq, h]; rfl
    have hrecords : Ref.records bs = [] :=
      if_neg fun hr => by rw [Ref.verdict_eq_report_iff, h] at hr; cases hr
    obtain ⟨u, hwrites, hexec⟩ := framePass_dropped hf h
    refine ⟨_, hexec, ?_, ?_, fun _ => ?_⟩
    · rw [hrecords, takeRaise_reportOut, takeRaise_pending, hwrites.reportOut_eq]; rfl
    · rw [hv, takeRaise_status]
    · rw [hv, takeRaise_diagOut, hwrites.diagOut_eq]
  | none =>
    have hv : Ref.verdict bs = .report := Ref.verdict_eq_report_iff.2 h
    have hrecords : Ref.records bs = [Ref.report bs] := if_pos hv
    obtain ⟨u, hwrites, hreport, hstatus, hexec⟩ := framePass_reported hf h
    refine ⟨_, hexec, ?_, ?_, fun hp => ?_⟩
    · rw [finishPass_sent, hwrites.reportOut_eq, hreport, hrecords]
    · rw [finishPass_status, hstatus, hv]
    · rw [finishPass_diagOut hp, hwrites.diagOut_eq, hstatus, hv]

end Sys2Proof.Machine

/-! SUPPORT. The reference encoder (30_encoding.md R74): each field of a reference frame is where R60 to R62 put it, so
the frame passes every check and its record holds the fields put in. -/

namespace Sys2Proof

open Machine

/-! ## Fields of a byte string in parts -/

theorem Machine.Ref.field_append_right (bs cs : List Byte) {a k n : Nat} (hk : k = bs.length) :
    Ref.field (bs ++ cs) (k + a) n = Ref.field cs a n := by
  rw [Ref.field, hk, List.drop_length_add_append, Ref.field]

/-! ## The parts of a reference frame -/

theorem FrameSpec.wf_iff {f : FrameSpec} :
    f.wf = true ↔ f.ipOptions.length % 4 = 0 ∧ f.ipOptions.length ≤ 40 ∧ f.tcpOptions.length % 4 = 0
      ∧ f.tcpOptions.length ≤ 40 ∧ f.totalLength ≤ 65535 := by
  simp [FrameSpec.wf, FrameSpec.totalLength, Config.wordBytes, and_assoc]

section
variable (f : FrameSpec)

/-- The bytes before the TCP header. -/
def FrameSpec.beforeTcp : List Byte := f.ethHeader ++ f.ipHeader

/-- The bytes from the TCP header on. -/
def FrameSpec.fromTcp : List Byte := f.tcpHeader ++ (f.payload ++ f.trailing)

theorem encodeFrame_eq : encodeFrame f = f.beforeTcp ++ f.fromTcp := by
  simp [encodeFrame, FrameSpec.beforeTcp, FrameSpec.fromTcp]

theorem FrameSpec.beforeTcp_length : f.beforeTcp.length = 34 + f.ipOptions.length := by
  simp [FrameSpec.beforeTcp, FrameSpec.ethHeader, FrameSpec.ipHeader]
  omega

theorem FrameSpec.tcpHeader_length : f.tcpHeader.length = 20 + f.tcpOptions.length := by
  simp [FrameSpec.tcpHeader]
  omega

theorem encodeFrame_length : (encodeFrame f).length = 14 + f.totalLength + f.trailing.length := by
  rw [encodeFrame_eq, List.length_append, f.beforeTcp_length, FrameSpec.fromTcp, List.length_append, f.tcpHeader_length,
    List.length_append, FrameSpec.totalLength]
  omega

/-! ## The fields of a reference frame -/

/-- A field whose bytes are those of a number that fits has its value. -/
theorem field_of_bytes {v n a : Nat} {bs : List Byte} (h : (bs.drop a).take n = beBytes n v) (hv : v < 256 ^ n) :
    Ref.field bs a n = v := by
  rw [Ref.field, h, beValue_beBytes, Nat.mod_eq_of_lt hv]

/-- A field whose bytes are those of a register has its value. -/
theorem field_of_register {w n a : Nat} {bs : List Byte} (x : BitVec w) (h : (bs.drop a).take n = beBytes n x.toNat)
    (hw : w ≤ 8 * n := by decide) : Ref.field bs a n = x.toNat :=
  field_of_bytes h (x.isLt.trans_le ((Nat.pow_le_pow_right (by decide) hw).trans_eq (Nat.pow_mul 2 8 n)))

theorem encodeFrame_ethertype : Ref.ethertype (encodeFrame f) = 0x0800 :=
  field_of_register (0x0800 : Half) (by simp [encodeFrame, FrameSpec.ethHeader, beBytes])

theorem encodeFrame_proto : Ref.proto (encodeFrame f) = 6 :=
  field_of_register (6 : Byte) (by simp [encodeFrame, FrameSpec.ethHeader, FrameSpec.ipHeader, beBytes])

theorem encodeFrame_ipSrc : Ref.field (encodeFrame f) 26 4 = f.ipSrc.toNat :=
  field_of_register _ (by simp [encodeFrame, FrameSpec.ethHeader, FrameSpec.ipHeader, beBytes])

theorem encodeFrame_ipDst : Ref.field (encodeFrame f) 30 4 = f.ipDst.toNat :=
  field_of_register _ (by simp [encodeFrame, FrameSpec.ethHeader, FrameSpec.ipHeader, beBytes])

theorem FrameSpec.fromTcp_srcPort : Ref.field f.fromTcp 0 2 = f.srcPort.toNat :=
  field_of_register _ (by simp [FrameSpec.fromTcp, FrameSpec.tcpHeader, beBytes])

theorem FrameSpec.fromTcp_dstPort : Ref.field f.fromTcp 2 2 = f.dstPort.toNat :=
  field_of_register _ (by simp [FrameSpec.fromTcp, FrameSpec.tcpHeader, beBytes])

theorem FrameSpec.fromTcp_seq : Ref.field f.fromTcp 4 4 = f.seq.toNat :=
  field_of_register _ (by simp [FrameSpec.fromTcp, FrameSpec.tcpHeader, beBytes])

theorem FrameSpec.fromTcp_ack : Ref.field f.fromTcp 8 4 = f.ack.toNat :=
  field_of_register _ (by simp [FrameSpec.fromTcp, FrameSpec.tcpHeader, beBytes])

theorem FrameSpec.fromTcp_flags : Ref.field f.fromTcp 13 1 = f.flags.toNat :=
  field_of_register _ (by simp [FrameSpec.fromTcp, FrameSpec.tcpHeader, beBytes])

theorem FrameSpec.fromTcp_window : Ref.field f.fromTcp 14 2 = f.window.toNat :=
  field_of_register _ (by simp [FrameSpec.fromTcp, FrameSpec.tcpHeader, beBytes])

variable {f}
variable (h : f.wf = true)
include h

theorem encodeFrame_ipHlen : Ref.ipHlen (encodeFrame f) = 20 + f.ipOptions.length := by
  obtain ⟨hword, hmax, -⟩ := FrameSpec.wf_iff.1 h
  have hvihl : Ref.field (encodeFrame f) 14 1 = 0x40 + 5 + f.ipOptions.length / 4 :=
    field_of_bytes (by simp [encodeFrame, FrameSpec.ethHeader, FrameSpec.ipHeader, beBytes]) (by omega)
  rw [Ref.ipHlen, hvihl]
  omega

theorem encodeFrame_totlen : Ref.totlen (encodeFrame f) = f.totalLength := by
  obtain ⟨-, -, -, -, hmax⟩ := FrameSpec.wf_iff.1 h
  exact field_of_bytes (by simp [encodeFrame, FrameSpec.ethHeader, FrameSpec.ipHeader, beBytes]) (by omega)

theorem encodeFrame_segOff : Ref.segOff (encodeFrame f) = f.beforeTcp.length := by
  rw [Ref.segOff, encodeFrame_ipHlen h, f.beforeTcp_length]
  omega

/-- A field of the TCP header is where R62 puts it. -/
theorem encodeFrame_tcpField (a n : Nat) :
    Ref.field (encodeFrame f) (Ref.segOff (encodeFrame f) + a) n = Ref.field f.fromTcp a n := by
  rw [encodeFrame_segOff h, encodeFrame_eq, Ref.field_append_right _ _ rfl]

theorem encodeFrame_segLen : Ref.segLen (encodeFrame f) = 20 + f.tcpOptions.length + f.payload.length := by
  rw [Ref.segLen, encodeFrame_totlen h, encodeFrame_ipHlen h, encodeFrame_length, FrameSpec.totalLength]
  omega

theorem encodeFrame_doff : Ref.doffAt (encodeFrame f) (Ref.segOff (encodeFrame f)) = 5 + f.tcpOptions.length / 4 := by
  obtain ⟨-, -, -, hmax, -⟩ := FrameSpec.wf_iff.1 h
  have hreserved := f.reserved.isLt
  have hbyte : Ref.field f.fromTcp 12 1 = (5 + f.tcpOptions.length / 4) * 16 + f.reserved.toNat :=
    field_of_bytes (by simp [FrameSpec.fromTcp, FrameSpec.tcpHeader, beBytes]) (by omega)
  rw [Ref.doffAt, encodeFrame_tcpField h, hbyte]
  omega

theorem encodeFrame_tcpHlen : Ref.tcpHlen (encodeFrame f) = 20 + f.tcpOptions.length := by
  obtain ⟨-, -, hword, -, -⟩ := FrameSpec.wf_iff.1 h
  rw [Ref.tcpHlen, encodeFrame_doff h]
  omega

theorem encodeFrame_payLen : Ref.payLen (encodeFrame f) = f.payload.length := by
  rw [Ref.payLen, encodeFrame_segLen h, encodeFrame_tcpHlen h]
  omega

theorem encodeFrame_payload :
    ((encodeFrame f).drop (Ref.payOff (encodeFrame f))).take f.payload.length = f.payload := by
  have hpayOff : Ref.payOff (encodeFrame f) = (f.beforeTcp ++ f.tcpHeader).length := by
    rw [Ref.payOff, encodeFrame_segOff h, encodeFrame_tcpHlen h, List.length_append, f.tcpHeader_length]
  have hparts : encodeFrame f = (f.beforeTcp ++ f.tcpHeader) ++ (f.payload ++ f.trailing) := by
    rw [encodeFrame_eq, FrameSpec.fromTcp, List.append_assoc]
  rw [hpayOff, hparts, List.drop_left, List.take_left]

/-! ## The verdict and the record of a reference frame -/

theorem encodeFrame_cause : Ref.cause (encodeFrame f) = none := by
  have hlen := encodeFrame_length f
  have hipHlen := encodeFrame_ipHlen h
  have htotlen := encodeFrame_totlen h
  have htotal : f.totalLength = 20 + f.ipOptions.length + 20 + f.tcpOptions.length + f.payload.length := rfl
  have hsegLen := encodeFrame_segLen h
  have hdoff := encodeFrame_doff h
  refine Ref.cause_eq_none_iff.2 ⟨Ref.ethCause_eq_none_iff.2 ⟨?_, encodeFrame_ethertype f⟩,
    Ref.ipCause_eq_none_iff.2 ⟨?_, ?_, ?_, ?_, encodeFrame_proto f⟩, Ref.tcpCauseAt_eq_none_iff.2 ⟨?_, ?_, ?_⟩⟩
  all_goals omega

theorem encodeFrame_report : Ref.report (encodeFrame f) = Ref.expected f := by
  have hsport : Ref.field (encodeFrame f) (Ref.segOff (encodeFrame f)) 2 = Ref.field f.fromTcp 0 2 := by
    rw [← encodeFrame_tcpField h, Nat.add_zero]
  simp only [Ref.report, Ref.expected, hsport, encodeFrame_ipSrc, encodeFrame_ipDst, encodeFrame_totlen h,
    encodeFrame_tcpField h, encodeFrame_tcpHlen h, encodeFrame_payLen h, encodeFrame_payload h,
    FrameSpec.fromTcp_srcPort, FrameSpec.fromTcp_dstPort, FrameSpec.fromTcp_seq, FrameSpec.fromTcp_ack,
    FrameSpec.fromTcp_flags, FrameSpec.fromTcp_window, BitVec.ofNat_toNat, BitVec.setWidth_eq]

end

end Sys2Proof

namespace Sys2Proof.Machine

/-- A pass whose record the sink takes is over (R230). -/
theorem finishPass_over {s u : State} (hwrites : StageWrites s u) (htakes : s.sink.head? ≠ some .never) :
    PassOver s (finishPass u) := by
  rw [← hwrites.sink_eq] at htakes
  rw [finishPass_of_takes htakes]
  obtain ⟨_, _, _, _, rfl⟩ := hwrites
  exact ⟨rfl, rfl, rfl, rfl, rfl, rfl, rfl, rfl, rfl, rfl, rfl, rfl⟩

/-- Settles O41: a reference frame passes every check with the record of the fields put in, and a pass sends the record
of a frame that does. -/
theorem referenceFrameRoundTrip : Obligations.ReferenceFrameRoundTrip := by
  unfold Obligations.ReferenceFrameRoundTrip
  intro f s hwf hf
  obtain ⟨u, hwrites, hreport, hstatus, hexec⟩ := framePass_reported hf (encodeFrame_cause hwf)
  have hsent : (finishPass u).reportOut ++ (finishPass u).pending.toList = s.reportOut ++ [Ref.expected f] := by
    rw [finishPass_sent, hwrites.reportOut_eq, hreport, encodeFrame_report hwf]
  refine ⟨finishPass u, hexec, (finishPass_status u).trans hstatus, hsent, fun htakes => ?_⟩
  obtain ⟨hstage, hinFlight, hfb, hpending, hkept⟩ := finishPass_over hwrites htakes
  refine ⟨⟨hstage, hinFlight, hfb, hpending, hkept⟩, ?_, ?_⟩
  · rw [finishPass_diagOut hpending, hwrites.diagOut_eq, hstatus]; rfl
  · rwa [hpending, Option.toList_none, List.append_nil] at hsent

end Sys2Proof.Machine

/-! SUPPORT. The ignored bits and fields of a frame (30_encoding.md R69): replacing one byte so that only they change
leaves every field the reference reads, so the verdict and the record stay. -/

namespace Sys2Proof.Machine

/-! ## Frames that agree on every field read -/

/-- The frames have one length and agree on the Ethernet and IPv4 fields an outcome or a report depends on. -/
structure Ref.HeadersAgree (bs cs : List Byte) : Prop where
  length_eq : cs.length = bs.length
  ethertype_eq : Ref.ethertype cs = Ref.ethertype bs
  ipHlen_eq : Ref.ipHlen cs = Ref.ipHlen bs
  totlen_eq : Ref.totlen cs = Ref.totlen bs
  proto_eq : Ref.proto cs = Ref.proto bs
  ipSrc_eq : Ref.field cs 26 4 = Ref.field bs 26 4
  ipDst_eq : Ref.field cs 30 4 = Ref.field bs 30 4

/-- The frames agree on the TCP fields an outcome or a report depends on, and on the payload. -/
structure Ref.SegmentsAgree (bs cs : List Byte) : Prop where
  srcPort_eq : Ref.field cs (Ref.segOff bs) 2 = Ref.field bs (Ref.segOff bs) 2
  dstPort_eq : Ref.field cs (Ref.segOff bs + 2) 2 = Ref.field bs (Ref.segOff bs + 2) 2
  seq_eq : Ref.field cs (Ref.segOff bs + 4) 4 = Ref.field bs (Ref.segOff bs + 4) 4
  ack_eq : Ref.field cs (Ref.segOff bs + 8) 4 = Ref.field bs (Ref.segOff bs + 8) 4
  doff_eq : Ref.doffAt cs (Ref.segOff bs) = Ref.doffAt bs (Ref.segOff bs)
  flags_eq : Ref.field cs (Ref.segOff bs + 13) 1 % 64 = Ref.field bs (Ref.segOff bs + 13) 1 % 64
  window_eq : Ref.field cs (Ref.segOff bs + 14) 2 = Ref.field bs (Ref.segOff bs + 14) 2
  payload_eq : (cs.drop (Ref.payOff bs)).take (Ref.payLen bs) = (bs.drop (Ref.payOff bs)).take (Ref.payLen bs)

/-- The two high bits of the flags byte are in no flag (R161). -/
theorem Ref.flagset_mod (n : Nat) : Ref.flagset (n % 64) = Ref.flagset n := by
  unfold Ref.flagset
  congr 1
  omega

section
variable {bs cs : List Byte} (h : Ref.HeadersAgree bs cs)
include h

theorem Ref.HeadersAgree.segOff_eq : Ref.segOff cs = Ref.segOff bs := by rw [Ref.segOff, h.ipHlen_eq, Ref.segOff]

theorem Ref.HeadersAgree.segLen_eq : Ref.segLen cs = Ref.segLen bs := by
  rw [Ref.segLen, h.ipHlen_eq, h.totlen_eq, h.length_eq, Ref.segLen]

theorem Ref.HeadersAgree.ethCause_eq : Ref.ethCause cs = Ref.ethCause bs := by
  rw [Ref.ethCause, h.length_eq, h.ethertype_eq, Ref.ethCause]

theorem Ref.HeadersAgree.ipCause_eq : Ref.ipCause cs = Ref.ipCause bs := by
  rw [Ref.ipCause, h.length_eq, h.ipHlen_eq, h.totlen_eq, h.proto_eq, Ref.ipCause]

/-- Where the IPv4 stage raises, the segments do not matter. -/
theorem Ref.HeadersAgree.cause_eq (hseg : Ref.ipCause bs = none → Ref.SegmentsAgree bs cs) :
    Ref.cause cs = Ref.cause bs := by
  rw [Ref.cause, Ref.cause, h.ethCause_eq, h.ipCause_eq]
  cases hip : Ref.ipCause bs with
  | some c => rfl
  | none => rw [h.segOff_eq, h.segLen_eq, Ref.tcpCauseAt, (hseg hip).doff_eq, Ref.tcpCauseAt]

theorem Ref.HeadersAgree.report_eq (hseg : Ref.SegmentsAgree bs cs) : Ref.report cs = Ref.report bs := by
  have htcpHlen : Ref.tcpHlen cs = Ref.tcpHlen bs := by rw [Ref.tcpHlen, h.segOff_eq, hseg.doff_eq, Ref.tcpHlen]
  have hpayOff : Ref.payOff cs = Ref.payOff bs := by rw [Ref.payOff, h.segOff_eq, htcpHlen, Ref.payOff]
  have hpayLen : Ref.payLen cs = Ref.payLen bs := by rw [Ref.payLen, h.segLen_eq, htcpHlen, Ref.payLen]
  have hflags : Ref.flagset (Ref.field cs (Ref.segOff bs + 13) 1)
      = Ref.flagset (Ref.field bs (Ref.segOff bs + 13) 1) := by
    rw [← Ref.flagset_mod, hseg.flags_eq, Ref.flagset_mod]
  simp only [Ref.report, h.ipSrc_eq, h.ipDst_eq, h.totlen_eq, h.segOff_eq, hseg.srcPort_eq, hseg.dstPort_eq,
    hseg.seq_eq, hseg.ack_eq, hseg.window_eq, hflags, htcpHlen, hpayOff, hpayLen, hseg.payload_eq]

/-- Frames that agree on what is read have one verdict and the same records. -/
theorem Ref.HeadersAgree.outcome_eq (hseg : Ref.ipCause bs = none → Ref.SegmentsAgree bs cs) :
    Ref.verdict cs = Ref.verdict bs ∧ Ref.records cs = Ref.records bs := by
  have hcause := h.cause_eq hseg
  have hverdict : Ref.verdict cs = Ref.verdict bs := by rw [Ref.verdict_eq, hcause, Ref.verdict_eq]
  refine ⟨hverdict, ?_⟩
  unfold Ref.records
  rw [hverdict]
  split_ifs with hreport
  · obtain ⟨-, hip, -⟩ := Ref.cause_eq_none_iff.1 (Ref.verdict_eq_report_iff.1 hreport)
    rw [h.report_eq (hseg hip)]
  · rfl

end

/-! ## One byte replaced -/

theorem take_drop_set (bs : List Byte) {i a n : Nat} (v : Byte) (h : i < a ∨ a + n ≤ i) :
    ((bs.set i v).drop a).take n = (bs.drop a).take n := by
  rw [List.drop_set]
  split_ifs with hia
  · rfl
  · rw [List.take_set_of_le (by omega)]

/-- A field that does not hold the byte stays. -/
theorem Ref.field_set (bs : List Byte) {i a n : Nat} (v : Byte) (h : i < a ∨ a + n ≤ i) :
    Ref.field (bs.set i v) a n = Ref.field bs a n := by
  rw [Ref.field, take_drop_set bs v h, Ref.field]

theorem Ref.field_set_same {bs : List Byte} {i : Nat} (v : Byte) (hi : i < bs.length) :
    Ref.field (bs.set i v) i 1 = v.toNat := Ref.field_one (List.getElem?_set_self hi)

/-- The TCP header starts behind a whole IPv4 header (R123, R129). -/
theorem Ref.segOff_ge {bs : List Byte} (h : Ref.ipCause bs = none) : 34 ≤ Ref.segOff bs := by
  obtain ⟨-, hheader, -⟩ := Ref.ipCause_eq_none_iff.1 h
  rw [Ref.segOff]
  omega

section
variable {bs : List Byte} {i : Nat} {v : Byte} (h : Ref.ignored bs i v)
include h

/-- Where an ignored byte is, seen from the Ethernet and IPv4 fields. -/
theorem Ref.ignored.header_cases :
    i < 12 ∨ (i = 14 ∧ v.toNat % 16 = Ref.field bs 14 1 % 16) ∨ i = 15 ∨ (18 ≤ i ∧ i ≤ 22) ∨ i = 24 ∨ i = 25
      ∨ 34 ≤ i := by
  unfold Ref.ignored at h
  by_cases hreport : Ref.verdict bs = .report
  · obtain ⟨-, hip, -⟩ := Ref.cause_eq_none_iff.1 (Ref.verdict_eq_report_iff.1 hreport)
    have hsegOff := Ref.segOff_ge hip
    omega
  · simp only [hreport, false_and, or_false] at h
    omega

theorem Ref.ignored.headersAgree (hi : i < bs.length) : Ref.HeadersAgree bs (bs.set i v) := by
  have hcases := h.header_cases
  have hihl : Ref.field (bs.set i v) 14 1 % 16 = Ref.field bs 14 1 % 16 := by
    by_cases h14 : i = 14
    · subst h14
      rw [Ref.field_set_same v hi]
      omega
    · rw [Ref.field_set bs v (by omega)]
  exact {
    length_eq := List.length_set
    ethertype_eq := Ref.field_set bs v (by omega)
    ipHlen_eq := by rw [Ref.ipHlen, hihl, Ref.ipHlen]
    totlen_eq := Ref.field_set bs v (by omega)
    proto_eq := Ref.field_set bs v (by omega)
    ipSrc_eq := Ref.field_set bs v (by omega)
    ipDst_eq := Ref.field_set bs v (by omega) }

/-- Where an ignored byte is, seen from the TCP fields and the payload of a packet that passes the IPv4 stage. -/
theorem Ref.ignored.segment_cases (hip : Ref.ipCause bs = none) :
    i < Ref.segOff bs
      ∨ (i < Ref.payOff bs ∧ ((i = Ref.segOff bs + 12 ∧ v.toNat / 16 = Ref.doffAt bs (Ref.segOff bs))
        ∨ (i = Ref.segOff bs + 13 ∧ v.toNat % 64 = Ref.field bs (Ref.segOff bs + 13) 1 % 64)
        ∨ Ref.segOff bs + 16 ≤ i))
      ∨ (Ref.segOff bs + 20 ≤ i ∧ Ref.payOff bs + Ref.payLen bs ≤ i) := by
  have hsegOff := Ref.segOff_ge hip
  unfold Ref.ignored at h
  by_cases hreport : Ref.verdict bs = .report
  · have hcause := Ref.verdict_eq_report_iff.1 hreport
    obtain ⟨-, -, htcp⟩ := Ref.cause_eq_none_iff.1 hcause
    obtain ⟨hsegLen, hdoff, -⟩ := Ref.tcpCauseAt_eq_none_iff.1 htcp
    have hpayOff : Ref.payOff bs = Ref.segOff bs + Ref.doffAt bs (Ref.segOff bs) * 4 := rfl
    have hend := Ref.payload_end hcause
    omega
  · simp only [hreport, false_and, or_false] at h
    omega

theorem Ref.ignored.segmentsAgree (hi : i < bs.length) (hip : Ref.ipCause bs = none) :
    Ref.SegmentsAgree bs (bs.set i v) := by
  have hcases := h.segment_cases hip
  have hpayOff : Ref.segOff bs ≤ Ref.payOff bs := Nat.le_add_right _ _
  have hdoff : Ref.doffAt (bs.set i v) (Ref.segOff bs) = Ref.doffAt bs (Ref.segOff bs) := by
    by_cases h12 : i = Ref.segOff bs + 12
    · rw [Ref.doffAt, ← h12, Ref.field_set_same v hi]
      omega
    · rw [Ref.doffAt, Ref.field_set bs v (by omega), Ref.doffAt]
  have hflags : Ref.field (bs.set i v) (Ref.segOff bs + 13) 1 % 64 = Ref.field bs (Ref.segOff bs + 13) 1 % 64 := by
    by_cases h13 : i = Ref.segOff bs + 13
    · rw [← h13, Ref.field_set_same v hi, h13]
      omega
    · rw [Ref.field_set bs v (by omega)]
  exact {
    srcPort_eq := Ref.field_set bs v (by omega)
    dstPort_eq := Ref.field_set bs v (by omega)
    seq_eq := Ref.field_set bs v (by omega)
    ack_eq := Ref.field_set bs v (by omega)
    doff_eq := hdoff
    flags_eq := hflags
    window_eq := Ref.field_set bs v (by omega)
    payload_eq := take_drop_set bs v (by omega) }

end

/-- Settles O43: the two frames agree on every field read, and a pass sends what the reference says of its frame. -/
theorem ignoredBytesChangeNothing : Obligations.IgnoredBytesChangeNothing := by
  unfold Obligations.IgnoredBytesChangeNothing
  intro s₁ s₂ bs i v hignored hf₁ hf₂
  have houtcome : Ref.verdict (bs.set i v) = Ref.verdict bs ∧ Ref.records (bs.set i v) = Ref.records bs := by
    by_cases hi : i < bs.length
    · exact (hignored.headersAgree hi).outcome_eq (hignored.segmentsAgree hi)
    · rw [List.set_eq_of_length_le (not_lt.1 hi)]
      exact ⟨rfl, rfl⟩
  obtain ⟨hverdict, hrecords⟩ := houtcome
  obtain ⟨t₁, hexec₁, hsent₁, hstatus₁, hdiag₁⟩ := framePass_sends hf₁
  obtain ⟨t₂, hexec₂, hsent₂, hstatus₂, hdiag₂⟩ := framePass_sends hf₂
  rw [hverdict] at hstatus₂ hdiag₂
  rw [hrecords] at hsent₂
  exact ⟨t₁, t₂, _, _, hexec₁, hexec₂, hsent₁, hsent₂, hstatus₁, hstatus₂, hdiag₁, hdiag₂⟩

end Sys2Proof.Machine

/-! SUPPORT. What the operations of the Ethernet stage do by themselves and in their order (40_ethernet_classifier.md
R100 to R106), and the operations whose result the spec leaves open in states no run reaches (notes/assumptions/15.md).
The lemmas on one operation made by itself, and on a sequence of them, serve every stage. -/

namespace Sys2Proof.Machine

/-! ## A raise, taken at once -/

/-- A drop after stage operations is a drop of the frame they were on. -/
theorem StageWrites.dropped {s t u : State} {code : Byte} (hst : StageWrites s t) (h : Dropped t u code) :
    Dropped s u code := by
  obtain ⟨_, _, _, _, rfl⟩ := hst
  exact h

/-- An operation that raises drops the frame (60_exceptions.md R253). -/
theorem settle_dropped {r : Flow} {c : Cause} {s u : State} (hr : r = .raised c u) (hwithin : r.Within s) :
    ∃ t, settle r = .next t ∧ Dropped s t c.code := by
  subst hr
  exact ⟨takeRaise c u, rfl, StageWrites.dropped hwithin (takeRaise_dropped c u)⟩

section
variable {s : State} {bad : Bool} {c : Cause}

/-- A test drops the frame where it raises, whatever the operation does after the test. -/
theorem settle_raiseIf_andThen_dropped (k : State → Flow) (hbad : bad = true) :
    ∃ t, settle ((raiseIf bad c s).andThen k) = .next t ∧ Dropped s t c.code := by
  subst hbad
  exact settle_dropped (raiseIf_true c s) (raiseIf_within true c s)

/-- An operation that is a test alone. -/
theorem settle_raiseIf_dropped (hbad : bad = true) :
    ∃ t, settle (raiseIf bad c s) = .next t ∧ Dropped s t c.code := by
  simpa only [Flow.andThen_ok] using settle_raiseIf_andThen_dropped .ok hbad

theorem settle_raiseIf_andThen_passed (k : State → Flow) (hgood : bad = false) :
    settle ((raiseIf bad c s).andThen k) = settle (k s) := by
  rw [hgood, raiseIf_false, Flow.ok_andThen]

theorem settle_raiseIf_passed (hgood : bad = false) : settle (raiseIf bad c s) = .next s := by
  rw [hgood, raiseIf_false, settle_ok]

end

/-! ## Operations one by one -/

/-- The operation `i` made by itself is `f` with its raise taken at once, and `f` is a stage operation. -/
structure MadeBy (i : Instr) (f : State → Flow) : Prop where
  exec_eq : ∀ s, exec i s = settle (f s)
  within : ∀ s, (f s).Within s

/-- Operations made one by one, until one has ended the pass, are their sequence: what goes on keeps the frame in
flight, and a raise releases it (R100, R253). -/
theorem execAll_eq_settle {is : List Instr} {fs : List (State → Flow)} (h : List.Forall₂ MadeBy is fs) {s : State}
    (hinFlight : s.inFlight = true) : execAll is s = settle (runOps fs s) := by
  induction h generalizing s with
  | nil => rfl
  | @cons i f is fs hmade _ ih =>
    have hexec := hmade.exec_eq s
    have hwithin := hmade.within s
    rw [execAll, runOps_cons, hexec]
    cases hf : f s with
    | ok t =>
      rw [hf] at hwithin
      have ht : t.inFlight = true := (StageWrites.inFlight_eq hwithin).trans hinFlight
      simp only [settle_ok, Flow.ok_andThen, ht, if_true]
      exact ih ht
    | raised c t =>
      have ht : (takeRaise c t).inFlight = false := rfl
      simp only [settle_raised, Flow.raised_andThen, ht, Bool.false_eq_true, if_false]
    | fault g => rfl

/-! ## The Ethernet stage -/

theorem opEthDispatch_within (s : State) : (opEthDispatch s).Within s :=
  (raiseIf_within _ _ s).andThen fun t => .putStage t _

/-- The six operations of R100. -/
theorem ethOps_madeBy : List.Forall₂ MadeBy [.ethLenchk, .ethDst, .ethSrc, .ethType, .ethRest, .ethDispatch]
    [opEthLenchk, opEthDst, opEthSrc, opEthType, opEthRest, opEthDispatch] := by
  simp only [List.forall₂_cons, List.forall₂_nil_left_iff, and_true]
  exact ⟨⟨fun _ => rfl, fun s => raiseIf_within _ _ s⟩, ⟨fun _ => rfl, readEth_within _ _⟩,
    ⟨fun _ => rfl, readEth_within _ _⟩, ⟨fun _ => rfl, readEth_within _ _⟩,
    ⟨fun _ => rfl, fun s => .putRegs s _⟩, ⟨fun _ => rfl, opEthDispatch_within⟩⟩

/-- Settles O11: the sequence is made operation by operation, and `opEthParse_gives` says what it leaves of a frame. -/
theorem ethStage : Obligations.EthStage := by
  unfold Obligations.EthStage
  refine ⟨fun s hinFlight => (execAll_eq_settle ethOps_madeBy (s := s.putStage .eth) hinFlight).symm,
    fun s bs hf => ?_⟩
  have hgives := opEthParse_gives hf
  cases hcause : Ref.ethCause bs with
  | some c =>
    rw [hcause] at hgives
    obtain ⟨u, hu⟩ := hgives
    exact settle_dropped hu (opEthParse_within s)
  | none =>
    rw [hcause] at hgives
    exact congrArg settle hgives

/-- A field of the Ethernet header, read by itself from a frame that holds the header (R45, R60). -/
theorem settle_readEth_in {s : State} {bs : List Byte} (f : FieldAt) {put : Regs → Nat → Regs} (hf : FrameIn s bs)
    (h : f.offset + f.width.bytes ≤ bs.length) :
    settle (readEth f put s) = .next (s.putRegs (put s.regs (Ref.field bs f.offset f.width.bytes))) := by
  have hlen := hf.2
  have hin : InSlice bs 0 s.len f.offset f.width.bytes := by unfold InSlice; omega
  exact congrArg settle (readInto_in hf hin put)

/-- Two bytes of the frame as a field, the first most significant (R41). -/
theorem Ref.field_two {bs : List Byte} {a : Nat} {hi lo : Byte} (hhi : bs[a]? = some hi) (hlo : bs[a + 1]? = some lo) :
    Ref.field bs a 2 = hi.toNat * 256 + lo.toNat := by
  obtain ⟨ha, rfl⟩ := List.getElem?_eq_some_iff.1 hhi
  obtain ⟨ha', rfl⟩ := List.getElem?_eq_some_iff.1 hlo
  rw [Ref.field, List.drop_eq_getElem_cons ha, List.take_succ_cons, List.drop_eq_getElem_cons ha', List.take_succ_cons,
    List.take_zero]
  simp [beValue]

/-- Settles O9: each extraction is one read inside the header. -/
theorem ethFieldsExtracted : Obligations.EthFieldsExtracted := by
  unfold Obligations.EthFieldsExtracted
  intro s bs hf h14
  exact ⟨settle_readEth_in Layout.ethDst hf (le_trans (by decide) h14),
    settle_readEth_in Layout.ethSrc hf (le_trans (by decide) h14), settle_readEth_in Layout.ethType hf h14,
    fun _ _ => Ref.field_two⟩

/-- Settles O8: the operation is one test on `L`. -/
theorem ethLengthTest : Obligations.EthLengthTest := by
  unfold Obligations.EthLengthTest
  exact fun s => ⟨fun hshort => settle_raiseIf_dropped (c := .ethShort) (decide_eq_true hshort),
    fun hlong => settle_raiseIf_passed (decide_eq_false (not_lt.2 hlong))⟩

/-- `ETH.REST` (R105), with `IP_LEN` the difference where its guard holds and a free value else. -/
theorem exec_ethRest (s : State) :
    exec .ethRest s = .next { s with regs := { s.regs with ipOff := 14, ipLen := guardedSub .ipLen s.len 14 } } := rfl

/-- Settles O10: the guarded difference is exact, and the dispatch is one test on `ETH_TYPE`. -/
theorem ethSliceAndDispatch : Obligations.EthSliceAndDispatch := by
  unfold Obligations.EthSliceAndDispatch
  refine fun s => ⟨fun h14 => ?_, fun htype => settle_raiseIf_andThen_passed _ (bne_eq_false_iff_eq.2 htype),
    fun htype => settle_raiseIf_andThen_dropped (c := .ethertype) _ (bne_iff_ne.2 htype)⟩
  rw [exec_ethRest, guardedSub_of_le .ipLen h14]

/-! ## Results the spec leaves open -/

/-- `IP.SLICE` (R129) where the declared length covers the header: the smaller of declared and remaining length. -/
theorem exec_ipSlice {s : State} (hdeclared : s.regs.ipHlen ≤ s.regs.ipTotlen.toNat) :
    exec .ipSlice s = .next { s with regs := { s.regs with
      segOff := 14 + s.regs.ipHlen
      segLen := min (s.regs.ipTotlen.toNat - s.regs.ipHlen) (guardedSub .segLen s.regs.ipLen s.regs.ipHlen) } } :=
  settle_raiseIf_andThen_passed _ (decide_eq_false (not_lt.2 hdeclared))

/-- `TCP.PAYLOAD` (R162), with `PAY_LEN` the difference where its guard holds and a free value else. -/
theorem exec_tcpPayload (s : State) :
    exec .tcpPayload s = .next { s with
      stage := .render
      regs := { s.regs with
        payOff := s.regs.segOff + s.regs.tcpHlen
        payLen := guardedSub .payLen s.regs.segLen s.regs.tcpHlen } } := rfl

/-- `REPORT.ASSEMBLE` (R191) where `PV` has `PV_LEN` bytes. -/
theorem exec_reportAssemble {s : State} (hpvLen : s.regs.pvLen.toNat ≤ 64) :
    exec .reportAssemble s = .next { s with regs := { s.regs with
      report := assemble s.regs (s.pv.toList.take s.regs.pvLen.toNat) } } := by
  show settle (opReportAssemble s) = _
  rw [opReportAssemble, readPreview_in s.pv hpvLen]
  rfl

/-- The first `n` bytes of the preview, as a list. -/
theorem preview_take_getElem? (pv : Preview) {n i : Nat} (h : i < n) : (pv.toList.take n)[i]? = pv[i]? := by
  rw [List.getElem?_take_of_lt h, Vector.getElem?_toList]

/-- Settles O60: each open result is the operation's own free value. -/
theorem unstatedResultsAreFree : Obligations.UnstatedResultsAreFree := by
  unfold Obligations.UnstatedResultsAreFree
  intro s
  refine ⟨fun _ => ⟨_, exec_ethRest s⟩, fun hdeclared _ => ⟨_, min_le_left _ _, exec_ipSlice hdeclared⟩,
    fun _ => ⟨_, exec_tcpPayload s⟩, fun hpvLen => ?_⟩
  refine ⟨narrow 6 .tcpHlen s.regs.tcpHlen, narrow 16 .payLen s.regs.payLen, s.pv.toList.take s.regs.pvLen.toNat,
    toNat_narrow_of_lt (w := 6) .tcpHlen, toNat_narrow_of_lt (w := 16) .payLen, ?_, fun i => preview_take_getElem? s.pv,
    exec_reportAssemble hpvLen⟩
  rw [List.length_take, Vector.length_toList, Nat.min_eq_left hpvLen]

end Sys2Proof.Machine

/-! SUPPORT. What the operations of the IPv4 stage do by themselves and in their order (41_ipv4_dissector.md R120 to
R131). -/

namespace Sys2Proof.Machine

/-! ## A stage made by itself -/

/-- A stage that raises on a frame drops it (60_exceptions.md R253). -/
theorem Flow.Gives.settle_dropped {s t : State} {c : Cause} {r : Flow} (h : r.Gives (some c) t) (hwithin : r.Within s) :
    ∃ u, settle r = .next u ∧ Dropped s u c.code := by
  obtain ⟨u, hu⟩ := h
  exact Machine.settle_dropped hu hwithin

/-- A stage that passes a frame goes on. -/
theorem Flow.Gives.settle_passed {t : State} {r : Flow} (h : r.Gives none t) : settle r = .next t :=
  congrArg settle h

/-! ## The operations of the IPv4 stage -/

theorem opIpHlen_within (s : State) : (opIpHlen s).Within s :=
  (raiseIf_within _ _ s).andThen fun t => .putRegs t _

theorem opIpSlice_within (s : State) : (opIpSlice s).Within s :=
  (raiseIf_within _ _ s).andThen fun t => .putRegs t _

theorem opIpDispatch_within (s : State) : (opIpDispatch s).Within s :=
  (raiseIf_within _ _ s).andThen fun t => .putStage t _

/-- The ten operations of R120. -/
theorem ipOps_madeBy : List.Forall₂ MadeBy
    [.ipLenchk, .ipVihl, .ipHlen, .ipHlenchk, .ipTotlen, .ipProto, .ipSrc, .ipDst, .ipSlice, .ipDispatch]
    [opIpLenchk, opIpVihl, opIpHlen, opIpHlenchk, opIpTotlen, opIpProto, opIpSrc, opIpDst, opIpSlice, opIpDispatch] := by
  simp only [List.forall₂_cons, List.forall₂_nil_left_iff, and_true]
  exact ⟨⟨fun _ => rfl, fun s => raiseIf_within _ _ s⟩, ⟨fun _ => rfl, readIp_within _ _⟩,
    ⟨fun _ => rfl, opIpHlen_within⟩, ⟨fun _ => rfl, fun s => raiseIf_within _ _ s⟩,
    ⟨fun _ => rfl, readIp_within _ _⟩, ⟨fun _ => rfl, readIp_within _ _⟩, ⟨fun _ => rfl, readIp_within _ _⟩,
    ⟨fun _ => rfl, readIp_within _ _⟩, ⟨fun _ => rfl, opIpSlice_within⟩, ⟨fun _ => rfl, opIpDispatch_within⟩⟩

/-- A field of the IPv4 header, read by itself inside the slice `(IP_OFF, IP_LEN)` (R53, R61). -/
theorem settle_readIp_in {s : State} {bs : List Byte} (f : FieldAt) {put : Regs → Nat → Regs} (hf : FrameIn s bs)
    (h : InSlice bs s.regs.ipOff s.regs.ipLen (14 + f.offset) f.width.bytes) :
    settle (readIp f put s) = .next (s.putRegs (put s.regs (Ref.field bs (14 + f.offset) f.width.bytes))) :=
  congrArg settle (readInto_in hf h put)

theorem ihl_eq_mod (s : State) : ihl s = s.regs.ipVihl.toNat % 16 := lowNibble_toNat s.regs.ipVihl

/-- Settles O16: the sequence is made operation by operation, and `opIpv4Parse_gives` says what it leaves of a frame,
whose protocol is 6 where it passes. -/
theorem ipv4Stage : Obligations.Ipv4Stage := by
  unfold Obligations.Ipv4Stage
  refine ⟨fun s hinFlight => (execAll_eq_settle ipOps_madeBy hinFlight).symm, fun s bs hf h14 hoff hlen => ?_⟩
  have hgives := opIpv4Parse_gives hf h14 hoff hlen
  cases hcause : Ref.ipCause bs with
  | some c =>
    rw [hcause] at hgives
    exact hgives.settle_dropped (opIpv4Parse_within s)
  | none =>
    obtain ⟨-, -, -, -, hproto⟩ := Ref.ipCause_eq_none_iff.1 hcause
    rw [hcause, State.afterIp, hproto] at hgives
    exact hgives.settle_passed

/-- Settles O13: each extraction is one read inside the slice, whatever the value read. -/
theorem ipFieldsExtracted : Obligations.IpFieldsExtracted := by
  unfold Obligations.IpFieldsExtracted
  exact fun s bs hf => ⟨settle_readIp_in Layout.ipVihl hf, settle_readIp_in Layout.ipTotlen hf,
    settle_readIp_in Layout.ipProto hf, settle_readIp_in Layout.ipSrc hf, settle_readIp_in Layout.ipDst hf⟩

/-- Settles O12: each operation is one test, and the dispatch moves `STAGE` where its test passes. -/
theorem ipTests : Obligations.IpTests := by
  unfold Obligations.IpTests
  refine fun s => ⟨fun hshort => ?_, fun hlong => ?_, fun hbeyond => ?_, fun hinside => ?_, fun hproto => ?_,
    fun hproto => ?_⟩
  · exact settle_raiseIf_dropped (c := .ipShort) (decide_eq_true hshort)
  · exact settle_raiseIf_passed (decide_eq_false (not_lt.2 hlong))
  · exact settle_raiseIf_dropped (c := .ipIhlGtBuf) (decide_eq_true hbeyond)
  · exact settle_raiseIf_passed (decide_eq_false (not_lt.2 hinside))
  · exact settle_raiseIf_andThen_dropped (c := .protocol) _ (bne_iff_ne.2 hproto)
  · exact settle_raiseIf_andThen_passed _ (bne_eq_false_iff_eq.2 hproto)

/-- Settles O14: the operation tests `IHL`, the low nibble of `IP_VIHL`, and writes it times four. -/
theorem ipHeaderLength : Obligations.IpHeaderLength := by
  unfold Obligations.IpHeaderLength
  intro s
  rw [← ihl_eq_mod]
  exact ⟨fun hsmall => settle_raiseIf_andThen_dropped (c := .ipIhlLtMin) _ (decide_eq_true hsmall),
    fun hmin => settle_raiseIf_andThen_passed _ (decide_eq_false (not_lt.2 hmin))⟩

/-- Settles O15: the operation tests the total length, and for a header inside the payload the remaining length is
exact. -/
theorem ipPayloadSlice : Obligations.IpPayloadSlice := by
  unfold Obligations.IpPayloadSlice
  refine fun s => ⟨fun hshort => ?_, fun hdeclared hheader => ?_⟩
  · exact settle_raiseIf_andThen_dropped (c := .ipTotlenLtHlen) _ (decide_eq_true hshort)
  · rw [exec_ipSlice hdeclared, guardedSub_of_le .segLen hheader]

end Sys2Proof.Machine

/-! SUPPORT. A flag's index and bit, and what the operations of the TCP stage do by themselves and in their order
(42_tcp_dissector.md R150 to R162). -/

namespace Sys2Proof

/-! ## A flag's index and bit -/

/-- The display order lists each flag at its index (R67). -/
theorem Flag.all_getElem?_index (f : Flag) : Flag.all[f.index]? = some f := by
  cases f <;> rfl

theorem Flag.mem_all (f : Flag) : f ∈ Flag.all := List.mem_of_getElem? f.all_getElem?_index

theorem Flag.index_lt (f : Flag) : f.index < 6 := (List.getElem?_eq_some_iff.1 f.all_getElem?_index).1

theorem Flag.index_injective : Function.Injective Flag.index := fun f g h =>
  Option.some.inj (f.all_getElem?_index.symm.trans (h ▸ g.all_getElem?_index))

/-- The bit of the TCP flags byte a flag's mask selects (R63). -/
def Flag.bit : Flag → Nat
  | .syn => 1
  | .ack => 4
  | .fin => 0
  | .rst => 2
  | .psh => 3
  | .urg => 5

theorem Flag.mask_eq_twoPow (f : Flag) : f.mask = BitVec.twoPow 8 f.bit := by
  cases f <;> rfl

/-- A flag's bit test reads its bit (R66). -/
theorem Flag.test_eq_getLsbD (flags : Byte) (f : Flag) : f.test flags = flags.getLsbD f.bit := by
  have hmask : BitVec.twoPow 8 f.bit ≠ 0#8 := by cases f <;> decide
  rw [Flag.test, Flag.mask_eq_twoPow, BitVec.and_twoPow]
  cases flags.getLsbD f.bit with
  | true => simpa using hmask
  | false => rfl

end Sys2Proof

namespace Sys2Proof.Machine

/-! ## The sequence -/

theorem opTcpPayload_within (s : State) : (opTcpPayload s).Within s :=
  (StageWrites.putRegs s _).trans (.putStage _ _)

/-- The twelve operations of R150. -/
theorem tcpOps_madeBy : List.Forall₂ MadeBy
    [.tcpLenchk, .tcpSport, .tcpDport, .tcpSeq, .tcpAck, .tcpDoff, .tcpDoffmin, .tcpHlenchk, .tcpFlags, .tcpWin,
      .tcpFlagset, .tcpPayload]
    [opTcpLenchk, opTcpSport, opTcpDport, opTcpSeq, opTcpAck, opTcpDoff, opTcpDoffmin, opTcpHlenchk, opTcpFlags,
      opTcpWin, opTcpFlagset, opTcpPayload] := by
  simp only [List.forall₂_cons, List.forall₂_nil_left_iff, and_true]
  exact ⟨⟨fun _ => rfl, fun s => raiseIf_within _ _ s⟩, ⟨fun _ => rfl, readTcp_within _ _⟩,
    ⟨fun _ => rfl, readTcp_within _ _⟩, ⟨fun _ => rfl, readTcp_within _ _⟩, ⟨fun _ => rfl, readTcp_within _ _⟩,
    ⟨fun _ => rfl, readTcp_within _ _⟩, ⟨fun _ => rfl, fun s => raiseIf_within _ _ s⟩,
    ⟨fun _ => rfl, fun s => raiseIf_within _ _ s⟩, ⟨fun _ => rfl, readTcp_within _ _⟩,
    ⟨fun _ => rfl, readTcp_within _ _⟩, ⟨fun _ => rfl, fun s => .putRegs s _⟩, ⟨fun _ => rfl, opTcpPayload_within⟩⟩

/-- Settles O23: the sequence is made operation by operation, and `opTcpParse_gives` says what it leaves of a segment. -/
theorem tcpStage : Obligations.TcpStage := by
  unfold Obligations.TcpStage
  refine ⟨fun s hinFlight => (execAll_eq_settle tcpOps_madeBy hinFlight).symm, fun s bs hf hslice => ?_⟩
  have hgives := opTcpParse_gives hf hslice
  cases hcause : Ref.tcpCauseAt bs s.regs.segOff s.regs.segLen with
  | some c =>
    rw [hcause] at hgives
    exact hgives.settle_dropped (opTcpParse_within s)
  | none =>
    rw [hcause] at hgives
    exact hgives.settle_passed

/-! ## The fields -/

/-- A field of the TCP header, read by itself inside the slice `(SEG_OFF, SEG_LEN)` (R53, R62). -/
theorem settle_readTcp_in {s : State} {bs : List Byte} (f : FieldAt) {put : Regs → Nat → Regs} (hf : FrameIn s bs)
    (h : InSlice bs s.regs.segOff s.regs.segLen (s.regs.segOff + f.offset) f.width.bytes) :
    settle (readTcp f put s) = .next (s.putRegs (put s.regs (Ref.field bs (s.regs.segOff + f.offset) f.width.bytes))) :=
  congrArg settle (readInto_in hf h put)

/-- Settles O18: each extraction is one read inside the slice, whatever the value read. -/
theorem tcpFieldsExtracted : Obligations.TcpFieldsExtracted := by
  unfold Obligations.TcpFieldsExtracted
  exact fun s bs hf => ⟨settle_readTcp_in Layout.tcpSport hf, settle_readTcp_in Layout.tcpDport hf,
    settle_readTcp_in Layout.tcpSeq hf, settle_readTcp_in Layout.tcpAck hf, settle_readTcp_in Layout.tcpFlags hf,
    settle_readTcp_in Layout.tcpWin hf⟩

theorem highNibble_eq_ofNat (b : Byte) : highNibble b = BitVec.ofNat 4 (b.toNat / 16) := by
  rw [← highNibble_toNat, BitVec.ofNat_toNat, BitVec.setWidth_eq]

/-- `TCP.DOFF` (R156), with byte 12 of the segment inside the slice `(SEG_OFF, SEG_LEN)`. -/
theorem exec_tcpDoff {s : State} {bs : List Byte} (hf : FrameIn s bs)
    (h : InSlice bs s.regs.segOff s.regs.segLen (s.regs.segOff + 12) 1) :
    exec .tcpDoff s = .next { s with regs := { s.regs with
      tcpDoff := highNibble (BitVec.ofNat 8 (Ref.field bs (s.regs.segOff + 12) 1))
      tcpHlen := (highNibble (BitVec.ofNat 8 (Ref.field bs (s.regs.segOff + 12) 1))).toNat * 4 } } :=
  settle_readTcp_in Layout.tcpDoff hf h

/-- Settles O19: the operation is one read of byte 12, of which it takes the high nibble. -/
theorem tcpDataOffset : Obligations.TcpDataOffset := by
  unfold Obligations.TcpDataOffset
  intro s bs b hf hb h13
  obtain ⟨hlt, -⟩ := List.getElem?_eq_some_iff.1 hb
  have hin : InSlice bs s.regs.segOff s.regs.segLen (s.regs.segOff + 12) 1 := by unfold InSlice; omega
  have hbyte : BitVec.ofNat 8 (Ref.field bs (s.regs.segOff + 12) 1) = b := by
    rw [Ref.field_one hb, BitVec.ofNat_toNat, BitVec.setWidth_eq]
  rw [exec_tcpDoff hf hin, hbyte, highNibble_toNat, highNibble_eq_ofNat]

/-! ## The flag set -/

/-- The row of the flag `g` sets bit `g` of the flag set and leaves the others. -/
theorem decodeFlag_getLsbD_index (flags : Byte) (fs : BitVec 6) (g f : Flag) :
    (decodeFlag flags fs g).getLsbD f.index = if f = g then f.test flags else fs.getLsbD f.index := by
  rw [decodeFlag, setFlagBit_getLsbD _ g.index_lt]
  by_cases h : f = g
  · subst h; simp
  · simp [Flag.index_injective.ne h, h]

/-- Rows made one after another set the bits of their flags and leave the others. -/
theorem foldl_decodeFlag_getLsbD (flags : Byte) (gs : List Flag) (fs : BitVec 6) (f : Flag) :
    (gs.foldl (decodeFlag flags) fs).getLsbD f.index = if f ∈ gs then f.test flags else fs.getLsbD f.index := by
  induction gs generalizing fs with
  | nil => simp
  | cons g gs ih =>
    rw [List.foldl_cons, ih, decodeFlag_getLsbD_index]
    by_cases hg : f = g <;> by_cases hgs : f ∈ gs <;> simp [hg, hgs]

/-- The decoded flag set has each flag's bit of the flags byte at the flag's index (R161). -/
theorem decodeFlags_getLsbD_index (flags : Byte) (f : Flag) :
    (decodeFlags flags).getLsbD f.index = flags.getLsbD f.bit := by
  rw [decodeFlags, foldl_decodeFlag_getLsbD, if_pos f.mem_all, Flag.test_eq_getLsbD]

/-- Settles O20: the operation writes the decoded flag set, flag by flag one bit of `TCP_FLAGS`. -/
theorem flagSetDecoded : Obligations.FlagSetDecoded := by
  unfold Obligations.FlagSetDecoded
  intro s
  have hbit := decodeFlags_getLsbD_index s.regs.tcpFlags
  exact ⟨decodeFlags s.regs.tcpFlags, rfl, decodeFlags_eq s.regs.tcpFlags, hbit .syn, hbit .ack, hbit .fin, hbit .rst,
    hbit .psh, hbit .urg⟩

/-! ## The tests and the payload slice -/

/-- Settles O17: each operation is one test. -/
theorem tcpTests : Obligations.TcpTests := by
  unfold Obligations.TcpTests
  refine fun s => ⟨fun hshort => ?_, fun hlong => ?_, fun hsmall => ?_, fun hmin => ?_, fun hbeyond => ?_,
    fun hinside => ?_⟩
  · exact settle_raiseIf_dropped (c := .tcpShort) (decide_eq_true hshort)
  · exact settle_raiseIf_passed (decide_eq_false (not_lt.2 hlong))
  · exact settle_raiseIf_dropped (c := .tcpDoffLtMin) (decide_eq_true hsmall)
  · exact settle_raiseIf_passed (decide_eq_false (not_lt.2 hmin))
  · exact settle_raiseIf_dropped (c := .tcpDoffGtBuf) (decide_eq_true hbeyond)
  · exact settle_raiseIf_passed (decide_eq_false (not_lt.2 hinside))

/-- Settles O22: for a header inside the segment the guarded difference is exact. -/
theorem tcpPayloadSlice : Obligations.TcpPayloadSlice := by
  unfold Obligations.TcpPayloadSlice
  intro s hheader
  rw [exec_tcpPayload, guardedSub_of_le .payLen hheader]

end Sys2Proof.Machine

/-! SUPPORT. What the operations of the report stage do by themselves and in their order (43_report_renderer.md R190 to
R194). -/

namespace Sys2Proof.Machine

/-! ## The preview -/

/-- The substitution, with the bounds and the placeholder of R193 written out. -/
theorem previewChar_eq (b : Byte) : previewChar b = if 0x20 ≤ b.toNat ∧ b.toNat ≤ 0x7E then b else 0x2E := rfl

/-- Settles O25: the operation yields the substituted byte. -/
theorem previewCharSubstitutes : Obligations.PreviewCharSubstitutes := by
  unfold Obligations.PreviewCharSubstitutes
  intro b s
  rw [← previewChar_eq]
  rfl

/-- Settles O24: the operation writes the smaller length, which seven bits hold. -/
theorem previewLength : Obligations.PreviewLength := by
  unfold Obligations.PreviewLength
  exact fun s => ⟨BitVec.ofNat 7 (min s.regs.payLen 64), rfl, s.previewSized_pvLen⟩

/-- A preview written from its first byte on, as R194 states it. -/
theorem PreviewWritten.from_zero {bs : List Byte} {off n : Nat} {q p : Preview} (h : PreviewWritten bs off 0 n q p) :
    (∀ (i : Nat) (b : Byte), i < n → bs[off + i]? = some b →
        p[i]? = some (if 0x20 ≤ b.toNat ∧ b.toNat ≤ 0x7E then b else 0x2E))
      ∧ ∀ a : Nat, n ≤ a → p[a]? = q[a]? := by
  obtain ⟨hwrites, hkeeps⟩ := h
  exact ⟨fun i b hi hb => previewChar_eq b ▸ hwrites i b (Nat.zero_le i) hi hb, fun a ha => hkeeps a (.inr ha)⟩

/-- Settles O26: the loop of R194 on payload bytes inside the frame, by `opPreviewBuild_written`. -/
theorem previewBuilt : Obligations.PreviewBuilt := by
  unfold Obligations.PreviewBuilt
  intro s bs hf h64 hpay hframe
  obtain ⟨p, hbuild, hwritten⟩ := opPreviewBuild_written hf h64 hpay hframe
  exact ⟨p, congrArg settle hbuild, hwritten.from_zero⟩

/-! ## The record and the stage -/

/-- Settles O27: the record is assembled from the registers and the first `PV_LEN` bytes of `PV`, and both lengths fit
their fields. -/
theorem recordAssembled : Obligations.RecordAssembled := by
  unfold Obligations.RecordAssembled
  intro s hheader hpay hpvLen
  refine ⟨s.pv.toList.take s.regs.pvLen.toNat, ?_, fun i => preview_take_getElem? s.pv, ?_⟩
  · rw [List.length_take, Vector.length_toList, Nat.min_eq_left hpvLen]
  · rw [exec_reportAssemble hpvLen, assemble, narrow_of_lt (w := 6) .tcpHlen hheader,
      narrow_of_lt (w := 16) .payLen hpay]

/-- The three operations of R190. -/
theorem renderOps_madeBy : List.Forall₂ MadeBy [.previewLen, .previewBuild, .reportAssemble]
    [opPreviewLen, opPreviewBuild, opReportAssemble] := by
  simp only [List.forall₂_cons, List.forall₂_nil_left_iff, and_true]
  exact ⟨⟨fun _ => rfl, fun s => .putRegs s _⟩, ⟨fun _ => rfl, fun s => buildFrom_within _ _ s⟩,
    ⟨fun _ => rfl, opReportAssemble_within⟩⟩

theorem Flow.NoRaise.of_andThen {r : Flow} {k : State → Flow} (h : (r.andThen k).NoRaise) : r.NoRaise := by
  cases r with
  | raised c t => exact h.elim
  | ok t | fault f => trivial

/-- Settles O28: the sequence is made operation by operation and raises nothing, and `opRender_eq` says what it leaves of
a payload. -/
theorem renderStage : Obligations.RenderStage := by
  unfold Obligations.RenderStage
  refine ⟨fun s hinFlight => ?_, fun s bs hf hframe hheader hpay => ?_⟩
  · have hnoRaise := Flow.NoRaise.of_andThen (opRender_noRaise s)
    rw [execAll_eq_settle renderOps_madeBy hinFlight]
    show settle (opRender s) = _
    rw [opRender]
    cases hops : runOps [opPreviewLen, opPreviewBuild, opReportAssemble] s with
    | ok t => rfl
    | raised c t => rw [hops] at hnoRaise; exact hnoRaise.elim
    | fault f => rfl
  · obtain ⟨p, hrender, hwritten⟩ := opRender_eq hf hframe hheader hpay
    exact ⟨p, congrArg settle hrender, hwritten.from_zero⟩

end Sys2Proof.Machine

/-! SUPPORT. The reference text of a record (43_report_renderer.md R195 to R198): numbers, addresses, flags and lines. -/

namespace Sys2Proof.Machine

/-! ## Numbers -/

/-- What R197 asks of the digits of a number: ASCII digits only, of the number's value, at least one, and no leading zero
but the single digit 0 for zero. -/
structure IsDecimal (v : Nat) (d : List Byte) : Prop where
  digits : ∀ c ∈ d, 0x30 ≤ c.toNat ∧ c.toNat ≤ 0x39
  value : d.foldl (fun acc c => acc * 10 + (c.toNat - 0x30)) 0 = v
  nonempty : d ≠ []
  leading : d.head? = some 0x30 → v = 0 ∧ d = [0x30]

theorem digitChar_toNat {n : Nat} (h : n < 10) : (digitChar n).toNat = 0x30 + n := by
  rw [digitChar, BitVec.toNat_ofNat, Nat.mod_eq_of_lt (by omega)]

theorem digitChar_digit {n : Nat} (h : n < 10) : 0x30 ≤ (digitChar n).toNat ∧ (digitChar n).toNat ≤ 0x39 := by
  rw [digitChar_toNat h]
  omega

theorem IsDecimal.single {v : Nat} (h : v < 10) : IsDecimal v [digitChar v] where
  digits := List.forall_mem_singleton.2 (digitChar_digit h)
  value := by simp [digitChar_toNat h]
  nonempty := List.cons_ne_nil _ _
  leading hzero := by
    have hchar : digitChar v = 0x30 := Option.some.inj hzero
    have hv : 0x30 + v = 0x30 := by rw [← digitChar_toNat h, hchar]; rfl
    exact ⟨by omega, by rw [hchar]⟩

/-- One more digit after the digits of a positive number: its first digit stays. -/
theorem IsDecimal.append_digit {v n : Nat} {d : List Byte} (h : IsDecimal v d) (hv : 0 < v) (hn : n < 10) :
    IsDecimal (v * 10 + n) (d ++ [digitChar n]) where
  digits := List.forall_mem_append.2 ⟨h.digits, List.forall_mem_singleton.2 (digitChar_digit hn)⟩
  value := by simp [h.value, digitChar_toNat hn]
  nonempty := List.append_ne_nil_of_left_ne_nil h.nonempty _
  leading hzero := by
    rw [List.head?_append_of_ne_nil _ h.nonempty] at hzero
    obtain ⟨rfl, -⟩ := h.leading hzero
    exact absurd hv (lt_irrefl 0)

theorem decDigits_isDecimal {fuel v : Nat} (h : v < fuel) : IsDecimal v (decDigits fuel v) := by
  induction fuel generalizing v with
  | zero => exact absurd h (Nat.not_lt_zero v)
  | succ fuel ih =>
    rw [decDigits]
    split
    · next hsmall => exact .single hsmall
    · next hlarge =>
      have hlast := (ih (v := v / 10) (by omega)).append_digit (by omega) (Nat.mod_lt v (by decide))
      rwa [Nat.div_add_mod'] at hlast

/-- Settles O31: digit by digit, with more fuel than the number has digits. -/
theorem decTextIsShortestDecimal : Obligations.DecTextIsShortestDecimal := by
  unfold Obligations.DecTextIsShortestDecimal
  intro v s
  obtain ⟨hdigits, hvalue, hnonempty, hleading⟩ := decDigits_isDecimal (Nat.lt_succ_self v)
  exact ⟨decText v, rfl, hdigits, hvalue, hnonempty, hleading⟩

/-! ## Addresses and flags -/

/-- A byte of an address, by division (R196). -/
theorem extractByte_toNat (a : Word) (k : Nat) : (BitVec.extractLsb' k 8 a).toNat = a.toNat / 2 ^ k % 256 := by
  rw [BitVec.extractLsb'_toNat, Nat.shiftRight_eq_div_pow]

/-- Settles O30: the address is cut into its four bytes, the first of which needs no remainder. -/
theorem ipv4TextIsDottedDecimal : Obligations.Ipv4TextIsDottedDecimal := by
  unfold Obligations.Ipv4TextIsDottedDecimal
  intro a s
  have hfirst : a.toNat / 2 ^ 24 % 256 = a.toNat / 16777216 := by
    have := a.isLt
    omega
  have hlast : a.toNat / 2 ^ 0 % 256 = a.toNat % 256 := by omega
  show Host.Outcome.next (s.putText (ipv4Text a)) = _
  rw [ipv4Text, extractByte_toNat, extractByte_toNat, extractByte_toNat, extractByte_toNat, hfirst, hlast]
  rfl

theorem joinNames_eq_intercalate (ns : List (List Byte)) : joinNames ns = (ascii ", ").intercalate ns := by
  induction ns using joinNames.induct with
  | case1 => rfl
  | case2 n => rw [joinNames, List.intercalate_singleton]
  | case3 n m rest ih => rw [joinNames, ih, List.intercalate_cons_cons]; rfl

/-- Every bit of a flag set is some flag's (R67). -/
theorem exists_flag_of_index : ∀ i < 6, ∃ f ∈ Flag.all, f.index = i := by decide

/-- The flag set is empty exactly when no flag is in it (R195). -/
theorem flagsIn_eq_nil_iff {fs : BitVec 6} : flagsIn fs = [] ↔ fs = 0 := by
  rw [flagsIn, List.filter_eq_nil_iff]
  refine ⟨fun h => BitVec.eq_of_getLsbD_eq fun i hi => ?_, fun h => by simp [h]⟩
  obtain ⟨f, hf, rfl⟩ := exists_flag_of_index i hi
  exact (Bool.eq_false_iff.2 (h f hf)).trans BitVec.getLsbD_zero.symm

/-- The text of a flag set, whichever case of R195 it is. -/
theorem flagsText_eq (fs : BitVec 6) :
    flagsText fs = if fs = 0 then ascii "(none)" else joinNames ((flagsIn fs).map fun f => ascii f.name) := by
  rw [flagsText]
  split
  · next hnil => rw [if_pos (flagsIn_eq_nil_iff.1 hnil)]; rfl
  · next hcons =>
    have hne : fs ≠ 0 := fun h => by simp [flagsIn_eq_nil_iff.2 h] at hcons
    rw [if_neg hne, hcons]

/-- The names of the flags in a set, by bit and name as R67 lists them. -/
theorem flagsIn_map_name (fs : BitVec 6) :
    ((([(0, "SYN"), (1, "ACK"), (2, "FIN"), (3, "RST"), (4, "PSH"), (5, "URG")] : List (Nat × String)).filter
      fun p => fs.getLsbD p.1).map fun p => ascii p.2) = (flagsIn fs).map fun f => ascii f.name := by
  have htable : ([(0, "SYN"), (1, "ACK"), (2, "FIN"), (3, "RST"), (4, "PSH"), (5, "URG")] : List (Nat × String))
      = Flag.all.map fun f => (f.index, f.name) := rfl
  rw [htable, List.filter_map, List.map_map]
  rfl

/-- Settles O29: the table of R67 is the display order with its names, and the joined names are an intercalation. -/
theorem flagsTextJoinsNames : Obligations.FlagsTextJoinsNames := by
  unfold Obligations.FlagsTextJoinsNames
  intro fs s
  rw [flagsIn_map_name, ← joinNames_eq_intercalate, ← flagsText_eq]
  rfl

/-! ## The report's lines -/

/-- A text that ends in a line feed is a line and the line feed R198 ends it with. -/
theorem ascii_lineFeed (t : String) : ascii (t ++ "\n") = ascii t ++ [0x0A] := by
  simp [ascii]

/-- In a well-formed record the preview is all of its bytes (R21, U3). -/
theorem take_preview_of_wf {r : PacketReport} (h : r.wf = true) :
    r.preview.take r.previewLen.toNat = r.preview := by
  simp only [PacketReport.wf, Bool.and_eq_true, beq_iff_eq] at h
  obtain ⟨hlen, -⟩ := h
  rw [← hlen, List.take_length]

/-- The Preview line stands exactly where there is a payload, and then ends in its line feed (R198). -/
theorem previewLine_eq {r : PacketReport} (h : r.wf = true) :
    ((if 0 < r.payloadLen.toNat then [ascii "   Preview: " ++ r.preview.take r.previewLen.toNat] else []).map
      fun l => l ++ [0x0A]).flatten
      = if r.payloadLen = 0 then [] else ascii "   Preview: " ++ r.preview ++ ascii "\n" := by
  have hpayload : 0 < r.payloadLen.toNat ↔ r.payloadLen ≠ 0 := by
    rw [Nat.pos_iff_ne_zero, ne_eq, ne_eq, ← BitVec.toNat_inj]
    rfl
  rw [take_preview_of_wf h]
  by_cases hzero : r.payloadLen = 0
  · rw [if_neg (hpayload.not_left.2 hzero), if_pos hzero]
    rfl
  · rw [if_pos (hpayload.2 hzero), if_neg hzero]
    exact List.append_nil _

/-- Settles O32: the six lines of R198 end in their line feeds, and the Preview line is `previewLine_eq`'s. -/
theorem renderTextLines : Obligations.RenderTextLines := by
  unfold Obligations.RenderTextLines
  intro r s hwf
  have htitle : ascii "TCP Packet\n" = ascii "TCP Packet" ++ [0x0A] := ascii_lineFeed "TCP Packet"
  have hcomma : ascii ",\n" = ascii "," ++ [0x0A] := ascii_lineFeed ","
  have hbytes : ascii " bytes\n" = ascii " bytes" ++ [0x0A] := ascii_lineFeed " bytes"
  have hend : ascii "\n" = [0x0A] := rfl
  show Host.Outcome.next (s.putText (renderText r)) = _
  rw [renderText, reportLines, List.map_append, List.flatten_append, previewLine_eq hwf, htitle, hcomma, hbytes, hend]
  simp only [List.map_cons, List.map_nil, List.flatten_cons, List.flatten_nil, List.append_nil, List.append_assoc]
  rfl

end Sys2Proof.Machine

/-! SUPPORT. What an operation and a step send out (43_report_renderer.md R200, R201; 60_exceptions.md R255): only the
delivery of a pass's record puts a record on `REPORT_OUT`, and no channel loses what it has carried. -/

namespace Sys2Proof.Machine

/-! ## The operations by kind -/

theorem exists_of_forall₂_mem {α β : Type} {R : α → β → Prop} {as : List α} {bs : List β} (h : List.Forall₂ R as bs)
    {a : α} (ha : a ∈ as) : ∃ b, R a b := by
  obtain ⟨k, hk, rfl⟩ := List.getElem_of_mem ha
  exact ⟨_, h.get hk (h.length_eq ▸ hk)⟩

/-- An operation that is neither a request, nor an emission, nor the halt, nor made of these, is a stage operation with its
raise taken at once, or yields a byte or a text (R193, R195 to R198). -/
theorem madeBy_or_yields {i : Instr}
    (hi : i ∉ [.framePass, .run, .nextFrame, .emitReport, .emitDiag, .captureError]) :
    (∃ f, MadeBy i f) ∨ ∀ s, ∃ b t, exec i s = .next { s with charOut := b, textOut := t } := by
  cases i with
  | framePass | run | nextFrame | emitReport | emitDiag | captureError => simp at hi
  | previewChar | flagsText | ipv4Text | decText | renderText => exact .inr fun _ => ⟨_, _, rfl⟩
  | ethParse => exact .inl ⟨_, fun _ => rfl, opEthParse_within⟩
  | ipv4Parse => exact .inl ⟨_, fun _ => rfl, opIpv4Parse_within⟩
  | tcpParse => exact .inl ⟨_, fun _ => rfl, opTcpParse_within⟩
  | render => exact .inl ⟨_, fun _ => rfl, opRender_within⟩
  | ethLenchk | ethDst | ethSrc | ethType | ethRest | ethDispatch =>
    exact .inl (exists_of_forall₂_mem ethOps_madeBy (by simp))
  | ipLenchk | ipVihl | ipHlen | ipHlenchk | ipTotlen | ipProto | ipSrc | ipDst | ipSlice | ipDispatch =>
    exact .inl (exists_of_forall₂_mem ipOps_madeBy (by simp))
  | tcpLenchk | tcpSport | tcpDport | tcpSeq | tcpAck | tcpDoff | tcpDoffmin | tcpHlenchk | tcpFlags | tcpWin
  | tcpFlagset | tcpPayload => exact .inl (exists_of_forall₂_mem tcpOps_madeBy (by simp))
  | flagSyn | flagAck | flagFin | flagRst | flagPsh | flagUrg =>
    exact .inl ⟨opFlag _, fun _ => rfl, fun s => .putRegs s _⟩
  | previewLen | previewBuild | reportAssemble => exact .inl (exists_of_forall₂_mem renderOps_madeBy (by simp))

/-! ## What the channels have carried -/

/-- `ys` is `xs` with at most one more at its end. -/
def AtMostOneMore {α : Type} (xs ys : List α) : Prop := ∃ zs, ys = xs ++ zs ∧ zs.length ≤ 1

theorem AtMostOneMore.refl {α : Type} (xs : List α) : AtMostOneMore xs xs :=
  ⟨[], (List.append_nil xs).symm, Nat.zero_le 1⟩

theorem AtMostOneMore.concat {α : Type} (xs : List α) (x : α) : AtMostOneMore xs (xs ++ [x]) := ⟨[x], rfl, le_rfl⟩

/-- Each channel has carried at most one more (R200). -/
structure ChannelsGrow (s t : State) : Prop where
  reports : AtMostOneMore s.reportOut t.reportOut
  codes : AtMostOneMore s.diagOut t.diagOut
  errors : AtMostOneMore s.errorOut t.errorOut

/-- No record has gone out, and at most one code and one error value (R201). -/
structure NoReportSent (s t : State) : Prop where
  reportOut_eq : t.reportOut = s.reportOut
  codes : AtMostOneMore s.diagOut t.diagOut
  errors : AtMostOneMore s.errorOut t.errorOut

theorem NoReportSent.refl (s : State) : NoReportSent s s := ⟨rfl, .refl _, .refl _⟩

theorem NoReportSent.channelsGrow {s t : State} (h : NoReportSent s t) : ChannelsGrow s t :=
  ⟨h.reportOut_eq ▸ .refl _, h.codes, h.errors⟩

/-! ## What an operation sends -/

/-- Stage operations send nothing. -/
theorem StageWrites.noReportSent {s t : State} (h : StageWrites s t) : NoReportSent s t := by
  obtain ⟨_, _, _, _, rfl⟩ := h
  exact { NoReportSent.refl s with }

/-- A raise after stage operations sends its code alone (R253). -/
theorem StageWrites.takeRaise_noReportSent {s t : State} (h : StageWrites s t) (c : Cause) :
    NoReportSent s (takeRaise c t) := by
  obtain ⟨_, _, _, _, rfl⟩ := h
  exact ⟨rfl, .concat _ _, .refl _⟩

theorem MadeBy.noReportSent {i : Instr} {f : State → Flow} {s t : State} (h : MadeBy i f) (hexec : exec i s = .next t) :
    NoReportSent s t := by
  have hwithin := h.within s
  rw [h.exec_eq] at hexec
  cases hflow : f s with
  | ok u => rw [hflow] at hexec hwithin; cases hexec; exact StageWrites.noReportSent hwithin
  | raised c u => rw [hflow] at hexec hwithin; cases hexec; exact StageWrites.takeRaise_noReportSent hwithin c
  | fault g => rw [hflow] at hexec; cases hexec

/-- The halt sends its code, and the error value if there is one (R235). -/
theorem takeCaptureError_noReportSent (s : State) : NoReportSent s (takeCaptureError s) :=
  ⟨rfl, .concat _ _, s.sourceError.toList, rfl, Option.length_toList_le⟩

theorem nextFrame_noReportSent {s t : State} (h : exec .nextFrame s = .next t) : NoReportSent s t := by
  obtain rfl | ⟨-, ⟨_, _, -, rfl⟩ | ⟨e, rest, -, rfl⟩⟩ := exec_nextFrame_cases h
  · exact .refl t
  · exact { NoReportSent.refl s with }
  · exact { takeCaptureError_noReportSent { s with answers := rest, sourceError := some e } with }

/-- Only the delivery of a pass's record, by itself or as part of a pass, sends a record (R201). -/
theorem exec_noReportSent {i : Instr} {s t : State} (h : exec i s = .next t) (hi : i ∉ [.emitReport, .framePass, .run]) :
    NoReportSent s t := by
  by_cases hhost : i ∈ [.nextFrame, .emitDiag, .captureError]
  · simp only [List.mem_cons, List.not_mem_nil, or_false] at hhost
    obtain rfl | rfl | rfl := hhost
    · exact nextFrame_noReportSent h
    · cases h; exact ⟨rfl, .concat _ _, .refl _⟩
    · cases h; exact takeCaptureError_noReportSent s
  · obtain ⟨f, hmade⟩ | hyields := madeBy_or_yields (i := i) (by simp_all)
    · exact hmade.noReportSent h
    · obtain ⟨_, _, heq⟩ := hyields s
      cases heq.symm.trans h
      exact { NoReportSent.refl s with }

/-- Settles O53: every operation but the three that deliver a record is `exec_noReportSent`'s. -/
theorem reportsComeFromPassesOnly : Obligations.ReportsComeFromPassesOnly := by
  unfold Obligations.ReportsComeFromPassesOnly
  intro i s t hexec hemit hpass hrun
  exact (exec_noReportSent hexec (by simp [hemit, hpass, hrun])).reportOut_eq

/-! ## What a step sends -/

/-- One turn of `EMIT_REPORT` sends the record or leaves it pending (R233, R286). -/
theorem emitReport_channelsGrow (s : State) : ChannelsGrow s s.emitReport := by
  refine ⟨?_, s.emitReport_diagOut ▸ .refl _, s.emitReport_errorOut ▸ .refl _⟩
  unfold State.emitReport
  split
  · exact .concat _ _
  · exact .concat _ _
  · exact .refl _
  · exact .refl _

/-- A pass's end on success sends the record and the code, or leaves the record pending (R230, R286). -/
theorem finishPass_channelsGrow (s : State) : ChannelsGrow s (finishPass s) := by
  by_cases h : s.sink.head? = some .never
  · rw [finishPass_of_never h]; exact ⟨.refl _, .refl _, .refl _⟩
  · rw [finishPass_of_takes h]; exact ⟨.concat _ _, .concat _ _, .refl _⟩

/-- A pass sends one record and one code at most (R230). -/
theorem framePass_channelsGrow {s t : State} (h : exec .framePass s = .next t) : ChannelsGrow s t := by
  rw [exec_framePass] at h
  have hwithin := opStages_within s
  cases hflow : opStages s with
  | ok u =>
    rw [hflow] at h hwithin
    cases h
    obtain ⟨_, _, _, _, rfl⟩ := hwithin
    exact { finishPass_channelsGrow _ with }
  | raised c u =>
    rw [hflow] at h hwithin
    cases h
    exact (StageWrites.takeRaise_noReportSent hwithin c).channelsGrow
  | fault f => rw [hflow] at h; cases h

/-- Every operation but the whole of `RUN` sends at most one record, one code and one error value (R200). -/
theorem exec_channelsGrow {i : Instr} {s t : State} (h : exec i s = .next t) (hrun : i ≠ .run) : ChannelsGrow s t := by
  by_cases hpass : i = .framePass
  · subst hpass; exact framePass_channelsGrow h
  by_cases hemit : i = .emitReport
  · subst hemit; cases h; exact emitReport_channelsGrow s
  · exact (exec_noReportSent h (by simp [*])).channelsGrow

/-- Moving the sequence on sends nothing. -/
theorem sequence_channels (i : Instr) (t : State) :
    (sequence i t).reportOut = t.reportOut ∧ (sequence i t).diagOut = t.diagOut ∧ (sequence i t).errorOut = t.errorOut := by
  unfold sequence
  split <;> exact ⟨rfl, rfl, rfl⟩

/-- Unless the sequence has come to `RUN`, it is not the operation made next. -/
theorem nextOp_ne_run {s : State} {i : Instr} (h : nextOp s = some i) (hop : s.op ≠ some .run) : i ≠ .run := by
  rintro rfl
  unfold nextOp at h
  split at h
  · next hsome => exact hop (hsome.trans h)
  · split at h <;> cases h

theorem stepOp_channelsGrow {s t : State} (h : stepOp s = .next t) (hop : s.op ≠ some .run) : ChannelsGrow s t := by
  obtain ⟨-, rfl⟩ | ⟨i, u, hnext, hexec, rfl⟩ := stepOp_cases h
  · exact (NoReportSent.refl t).channelsGrow
  · obtain ⟨hreports, hcodes, herrors⟩ := sequence_channels i u
    have hgrow := exec_channelsGrow hexec (nextOp_ne_run hnext hop)
    exact ⟨hreports ▸ hgrow.reports, hcodes ▸ hgrow.codes, herrors ▸ hgrow.errors⟩

/-- A step is a reset or a step of the sequence, with the reset input read (R280). -/
theorem step_cases {s t : State} (h : step s = .next t) :
    ∃ rest, t = takeReset { s with resetIn := rest } ∨ stepOp { s with resetIn := rest } = .next t := by
  unfold step readReset at h
  rcases hreset : s.resetIn with _ | ⟨_ | n, rest⟩ <;> rw [hreset] at h
  · exact ⟨[], .inr (hreset ▸ h)⟩
  · cases h; exact ⟨rest, .inl rfl⟩
  · exact ⟨n :: rest, .inr h⟩

/-- Settles O54: a reset leaves what was carried, and a step of the sequence sends what its operation does. -/
theorem channelsOnlyGrow : Obligations.ChannelsOnlyGrow := by
  unfold Obligations.ChannelsOnlyGrow
  intro s t hstep hop
  have hgrow : ChannelsGrow s t := by
    obtain ⟨rest, rfl | hseq⟩ := step_cases hstep
    · exact ⟨.refl _, .refl _, .refl _⟩
    · exact { stepOp_channelsGrow hseq hop with }
  exact ⟨hgrow.reports, hgrow.codes, hgrow.errors⟩

end Sys2Proof.Machine

/-! SUPPORT. What a pass comes to, frame by frame, against the reference (44_frame_pass_and_host.md R230,
60_exceptions.md R252, R253): it drops the frame, or hands its record over and is over, or waits for ever with the record pending. -/

namespace Sys2Proof.Machine

/-! ## The three ways a pass ends -/

/-- The pass has handed the record `r` to a sink that takes it, and is over (R230, R233). -/
structure Reported (s : State) (r : PacketReport) (t : State) : Prop where
  passOver : PassOver s t
  status_eq : t.status = Cause.report.code
  diagOut_eq : t.diagOut = s.diagOut ++ [Cause.report.code]
  reportOut_eq : t.reportOut = s.reportOut ++ [r]
  sink_eq : t.sink = s.sink.tail

/-- The pass waits in `EMIT_REPORT` with the record `r`, which the sink never takes, and nothing outside the pass has
changed but what is pending and the sequence's place (R286, U7). -/
def StuckWith (s : State) (r : PacketReport) (t : State) : Prop :=
  ∃ u, StageWrites s u ∧ u.stage = .render ∧ u.status = Cause.report.code ∧ u.regs.report = r
    ∧ t = { u.offer with op := some .emitReport }

section
variable {s : State} {bs : List Byte} (hf : FrameIn s bs)
include hf

/-- A frame that meets a condition is dropped with its code (R251, R253). -/
theorem framePass_drops (h : Ref.verdict bs ≠ .report) :
    ∃ t, exec .framePass s = .next t ∧ Dropped s t (Ref.verdict bs).code := by
  obtain ⟨c, hc⟩ := Option.ne_none_iff_exists'.1 (mt Ref.verdict_eq_report_iff.2 h)
  obtain ⟨u, hwrites, hexec⟩ := framePass_dropped hf hc
  obtain rfl : Ref.verdict bs = c := by rw [Ref.verdict_eq, hc, Option.getD_some]
  exact ⟨_, hexec, hwrites.dropped (takeRaise_dropped _ u)⟩

theorem framePass_reports (h : Ref.verdict bs = .report) (htakes : s.sink.head? ≠ some .never) :
    ∃ t, exec .framePass s = .next t ∧ Reported s (Ref.report bs) t := by
  obtain ⟨u, hwrites, hreport, hstatus, hexec⟩ := framePass_reported hf (Ref.verdict_eq_report_iff.1 h)
  have htakes' : u.sink.head? ≠ some .never := hwrites.sink_eq ▸ htakes
  refine ⟨_, hexec, finishPass_over hwrites htakes, ?_, ?_, ?_, ?_⟩ <;> rw [finishPass_of_takes htakes']
  · exact hstatus
  · simp [State.deliver, hwrites.diagOut_eq, hstatus]
  · simp [State.deliver, hwrites.reportOut_eq, hreport]
  · simp [hwrites.sink_eq]

theorem framePass_waits (h : Ref.verdict bs = .report) (hnever : s.sink.head? = some .never) :
    ∃ t, exec .framePass s = .next t ∧ StuckWith s (Ref.report bs) t := by
  obtain ⟨p, hp⟩ := opStages_ok hf (Ref.verdict_eq_report_iff.1 h)
  have hwrites := (opStages_within s).of_ok hp
  refine ⟨_, ?_, _, hwrites, rfl, rfl, s.afterRender_report bs p, rfl⟩
  rw [exec_framePass, hp, ← finishPass_of_never (hwrites.sink_eq ▸ hnever)]
  rfl

end

/-- Settles O40: a frame that meets a condition is dropped, and the record of one that meets none is taken or left
pending. -/
theorem framePassMeetsTheReference : Obligations.FramePassMeetsTheReference := by
  unfold Obligations.FramePassMeetsTheReference
  intro s bs hf
  refine ⟨fun hends => ?_, fun hv hnever => ?_⟩
  · by_cases hv : Ref.verdict bs = .report
    · obtain ⟨t, hexec, hover, hstatus, hcodes, hreports, hsink⟩ :=
        framePass_reports hf hv (hends.resolve_left (not_not_intro hv))
      simp only [hv, if_true]
      exact ⟨t, hexec, hover, hstatus, hcodes, hreports, hsink⟩
    · obtain ⟨t, hexec, hover, hstatus, hcodes, hreports, hsink⟩ := framePass_drops hf hv
      simp only [hv, if_false, List.append_nil]
      exact ⟨t, hexec, hover, hstatus, hcodes, hreports, hsink⟩
  · obtain ⟨t, hexec, u, hwrites, hstage, hstatus, hreport, rfl⟩ := framePass_waits hf hv hnever
    obtain ⟨hfb, hlen⟩ := hwrites.frameIn hf
    refine ⟨_, hexec, congrArg some hreport, hreport, hstatus, hstage, rfl, ?_⟩
    obtain ⟨_, _, _, _, rfl⟩ := hwrites
    exact ⟨rfl, rfl, ⟨hfb, hlen⟩, rfl, rfl, rfl, rfl, rfl, rfl, rfl, rfl, rfl⟩

end Sys2Proof.Machine

/-! SUPPORT. The request, the emissions and the halt (44_frame_pass_and_host.md R232 to R241), what `RUN` does with each
answer (R231), and the machine's steps through a run. -/

namespace Sys2Proof.Machine

/-! ## The request -/

/-- The state with an answer used up and its frame in flight (R232). -/
def State.takeFrame (s : State) (bs : List Byte) (rest : List SourceAnswer) : State :=
  { s with answers := rest }.loadFrame bs

/-- The state with an error answer used up and the halt taken (R235). -/
def State.takeError (s : State) (e : SourceError) (rest : List SourceAnswer) : State :=
  takeCaptureError { s with answers := rest, sourceError := some e }

theorem State.takeFrame_frameIn (s : State) (bs : List Byte) (rest : List SourceAnswer) :
    FrameIn (s.takeFrame bs rest) bs := .loadFrame _ bs

section
variable {s : State}

/-- Where something stands against a request, none is made (R232, R237, R241, R286). -/
theorem mayRequest_eq_false (h : s.loop = .halted ∨ s.stage ≠ .idle ∨ s.inFlight = true ∨ s.pending ≠ none) :
    mayRequest s = false := by
  rw [Bool.eq_false_iff, ne_eq, mayRequest_iff]
  rintro ⟨hloop, hstage, hinFlight, hpending⟩
  simp [hloop, hstage, hinFlight, hpending] at h

theorem request_waiting (h : mayRequest s = false ∨ s.answers = []) : request s = .waiting := by
  unfold request
  obtain h | h := h <;> simp [h]

theorem request_frame {bs : List Byte} {rest : List SourceAnswer} (h : mayRequest s = true)
    (ha : s.answers = .frame bs :: rest) : request s = .frame (s.takeFrame bs rest) := by
  simp [request, h, ha, State.takeFrame]

theorem request_error {e : SourceError} {rest : List SourceAnswer} (h : mayRequest s = true)
    (ha : s.answers = .error e :: rest) :
    request s = .error { s with answers := rest, sourceError := some e } := by
  simp [request, h, ha]

/-- `NEXT_FRAME`, answer by answer (R232). -/
theorem exec_nextFrame_waiting (h : mayRequest s = false ∨ s.answers = []) : exec .nextFrame s = .next s := by
  show execNextFrame s = _
  rw [execNextFrame, request_waiting h]

theorem exec_nextFrame_frame {bs : List Byte} {rest : List SourceAnswer} (h : mayRequest s = true)
    (ha : s.answers = .frame bs :: rest) : exec .nextFrame s = .next (s.takeFrame bs rest) := by
  show execNextFrame s = _
  rw [execNextFrame, request_frame h ha]

theorem exec_nextFrame_error {e : SourceError} {rest : List SourceAnswer} (h : mayRequest s = true)
    (ha : s.answers = .error e :: rest) : exec .nextFrame s = .next (s.takeError e rest) := by
  show execNextFrame s = _
  rw [execNextFrame, request_error h ha]
  rfl

end

/-! ## What an operation does to the loop -/

/-- `LOOP` and the answers still to come are as they were. -/
structure LoopKept (s t : State) : Prop where
  loop_eq : t.loop = s.loop
  answers_eq : t.answers = s.answers

theorem StageWrites.loopKept {s t : State} (h : StageWrites s t) : LoopKept s t := by
  obtain ⟨_, _, _, _, rfl⟩ := h
  exact ⟨rfl, rfl⟩

theorem LoopKept.trans {s t u : State} (hst : LoopKept s t) (htu : LoopKept t u) : LoopKept s u :=
  ⟨htu.loop_eq.trans hst.loop_eq, htu.answers_eq.trans hst.answers_eq⟩

theorem takeRaise_loopKept (c : Cause) (s : State) : LoopKept s (takeRaise c s) := ⟨rfl, rfl⟩

theorem finishPass_loopKept (s : State) : LoopKept s (finishPass s) := by
  unfold finishPass afterReport
  split <;> exact ⟨by simp, by simp⟩

theorem MadeBy.loopKept {i : Instr} {f : State → Flow} {s t : State} (h : MadeBy i f) (hexec : exec i s = .next t) :
    LoopKept s t := by
  have hwithin := h.within s
  rw [h.exec_eq] at hexec
  cases hflow : f s with
  | ok u => rw [hflow] at hexec hwithin; cases hexec; exact StageWrites.loopKept hwithin
  | raised c u =>
    rw [hflow] at hexec hwithin
    cases hexec
    exact (StageWrites.loopKept hwithin).trans (takeRaise_loopKept c u)
  | fault g => rw [hflow] at hexec; cases hexec

/-- A pass leaves the loop as it was, however it ends (R230, R240). -/
theorem framePass_loopKept {s t : State} (h : exec .framePass s = .next t) : LoopKept s t := by
  rw [exec_framePass] at h
  have hwithin := opStages_within s
  cases hflow : opStages s with
  | ok u =>
    rw [hflow] at h hwithin
    cases h
    exact (StageWrites.loopKept hwithin).trans (finishPass_loopKept u)
  | raised c u =>
    rw [hflow] at h hwithin
    cases h
    exact (StageWrites.loopKept hwithin).trans (takeRaise_loopKept c u)
  | fault f => rw [hflow] at h; cases h

/-- Only a request and the halt bear on the loop (R231, R235, R240). -/
theorem exec_loopKept {i : Instr} {s t : State} (h : exec i s = .next t) (hi : i ∉ [.nextFrame, .run, .captureError]) :
    LoopKept s t := by
  by_cases hhost : i ∈ [.framePass, .emitReport, .emitDiag]
  · simp only [List.mem_cons, List.not_mem_nil, or_false] at hhost
    obtain rfl | rfl | rfl := hhost
    · exact framePass_loopKept h
    · cases h; exact ⟨s.emitReport_loop, s.emitReport_answers⟩
    · cases h; exact ⟨rfl, rfl⟩
  · obtain ⟨f, hmade⟩ | hyields := madeBy_or_yields (i := i) (by simp_all)
    · exact hmade.loopKept h
    · obtain ⟨_, _, heq⟩ := hyields s
      cases heq.symm.trans h
      exact ⟨rfl, rfl⟩

/-! ## The loop, answer by answer -/

section
variable {s : State}

/-- `RUN` waits where `NEXT_FRAME` does (R231). -/
theorem runLoop_waiting (n : Nat) (h : mayRequest s = false ∨ s.answers = []) : runLoop n s = .next s := by
  cases n with
  | zero => rfl
  | succ n =>
    rw [runLoop, request_waiting h]
    cases s.loop <;> rfl

theorem exec_run_waiting (h : mayRequest s = false ∨ s.answers = []) : exec .run s = .next s :=
  runLoop_waiting _ h

/-- An error answered is the end of `RUN` (R235). -/
theorem exec_run_error {e : SourceError} {rest : List SourceAnswer} (h : mayRequest s = true)
    (ha : s.answers = .error e :: rest) : exec .run s = .next (s.takeError e rest) := by
  show runLoop s.answers.length s = _
  obtain ⟨hloop, -⟩ := mayRequest_iff.1 h
  rw [ha, List.length_cons, runLoop, hloop, request_error h ha]
  rfl

/-- A frame answered is one pass, and then `RUN` with the answers left (R231). -/
theorem exec_run_frame {bs : List Byte} {rest : List SourceAnswer} {u : State} (h : mayRequest s = true)
    (ha : s.answers = .frame bs :: rest) (hpass : exec .framePass (s.takeFrame bs rest) = .next u) :
    exec .run s = exec .run u := by
  show runLoop s.answers.length s = runLoop u.answers.length u
  obtain ⟨hloop, -⟩ := mayRequest_iff.1 h
  have hanswers : u.answers = rest := (framePass_loopKept hpass).answers_eq
  change execFramePass _ = _ at hpass
  rw [ha, hanswers, List.length_cons, runLoop, hloop, request_frame h ha]
  simp only [hpass]

/-- `RUN` ends, and what holds where it waits and where it halts, and of a pass and the run after it, holds of `RUN`:
the induction is on the answers still to come (R231, R256). -/
theorem exec_run_induction {R : State → State → Prop}
    (hwait : ∀ s, mayRequest s = false ∨ s.answers = [] → R s s)
    (herror : ∀ s e rest, mayRequest s = true → s.answers = .error e :: rest → R s (s.takeError e rest))
    (hframe : ∀ s bs rest u t, mayRequest s = true → s.answers = .frame bs :: rest →
      exec .framePass (s.takeFrame bs rest) = .next u → R u t → R s t)
    (s : State) : ∃ t, exec .run s = .next t ∧ R s t := by
  induction ha : s.answers generalizing s with
  | nil => exact ⟨s, exec_run_waiting (.inr ha), hwait s (.inr ha)⟩
  | cons a rest ih =>
    cases hrequest : mayRequest s with
    | false => exact ⟨s, exec_run_waiting (.inl hrequest), hwait s (.inl hrequest)⟩
    | true =>
      cases a with
      | error e => exact ⟨_, exec_run_error hrequest ha, herror s e rest hrequest ha⟩
      | frame bs =>
        obtain ⟨u, hpass, -⟩ := framePass_sends (s.takeFrame_frameIn bs rest)
        obtain ⟨t, hrun, hR⟩ := ih u (framePass_loopKept hpass).answers_eq
        exact ⟨t, (exec_run_frame hrequest ha hpass).trans hrun, hframe s bs rest u t hrequest ha hpass hR⟩

end

/-! ## The obligations on single operations -/

theorem Cause.captureError_code : Cause.captureError.code = 0xC1 := by decide

/-- Settles O33, answer by answer. -/
theorem nextFrameTakesTheAnswer : Obligations.NextFrameTakesTheAnswer := by
  unfold Obligations.NextFrameTakesTheAnswer
  intro s hloop hstage hinFlight hpending
  have hrequest := mayRequest_iff.2 ⟨hloop, hstage, hinFlight, hpending⟩
  refine ⟨fun ha => exec_nextFrame_waiting (.inr ha), fun bs rest ha => ?_, fun e rest ha => ?_⟩
  · exact ⟨Memory.ofBytes bs, exec_nextFrame_frame hrequest ha, fun i => Memory.read_ofBytes i bs⟩
  · rw [exec_nextFrame_error hrequest ha, ← Cause.captureError_code]
    rfl

/-- Settles O34: each of the four stands against a request. -/
theorem noRequestOutOfTurn : Obligations.NoRequestOutOfTurn := by
  unfold Obligations.NoRequestOutOfTurn
  intro s h
  have hnone := mayRequest_eq_false h
  exact ⟨exec_nextFrame_waiting (.inl hnone), exec_run_waiting (.inl hnone)⟩

/-- Settles O36, by the sink's next turn. -/
theorem emissionsAppend : Obligations.EmissionsAppend := by
  unfold Obligations.EmissionsAppend
  intro s
  have hemit : exec .emitReport s = .next s.emitReport := rfl
  rw [hemit]
  refine ⟨fun h => ?_, fun rest h => ?_, fun n rest h => ?_, fun rest h => ?_, rfl⟩
  · rw [State.emitReport_of_ready h]; rfl
  · rw [State.emitReport_of_takes h]; rfl
  · rw [State.emitReport_of_waits h]; rfl
  · rw [State.emitReport_of_never h]; rfl

/-- Settles O37: the halt, with the source's error at hand. -/
theorem captureErrorHalts : Obligations.CaptureErrorHalts := by
  unfold Obligations.CaptureErrorHalts
  intro s e he
  have hhalt : exec .captureError s = .next (takeCaptureError s) := rfl
  have hvalue : s.errorOut ++ [e] = s.errorOut ++ s.sourceError.toList := by rw [he, Option.toList_some]
  rw [hhalt, hvalue, ← Cause.captureError_code]
  rfl

/-- Settles O35: a halted block that meets the invariant has come to no operation, so its step makes none. -/
theorem haltedStaysHalted : Obligations.HaltedStaysHalted := by
  unfold Obligations.HaltedStaysHalted
  intro s k hinv hloop hreset
  obtain ⟨-, -, -, -, hhalted, -, -⟩ := hinv
  have hstep : step s = .next s := by
    rw [step_eq_stepOp hreset, stepOp_none (nextOp_of_halted (hhalted hloop) hloop)]
  induction k with
  | zero => rfl
  | succ k ih => simpa [Host.Core.run, core, hstep] using ih

/-- Settles O38, answer by answer. -/
theorem runFoldsTheAnswers : Obligations.RunFoldsTheAnswers := by
  unfold Obligations.RunFoldsTheAnswers
  intro s hloop hstage hinFlight hpending
  have hrequest := mayRequest_iff.2 ⟨hloop, hstage, hinFlight, hpending⟩
  refine ⟨fun ha => exec_run_waiting (.inr ha), fun e rest ha => ?_, fun bs rest t u ha hframe hpass => ?_⟩
  · rw [exec_run_error hrequest ha, exec_nextFrame_error hrequest ha]
  · cases (exec_nextFrame_frame hrequest ha).symm.trans hframe
    exact exec_run_frame hrequest ha hpass

/-- The loop is as it was, or it is halted and 0xC1 is the last code out (R235). -/
def LoopOutcome (s t : State) : Prop := t.loop = s.loop ∨ t.loop = .halted ∧ t.diagOut.getLast? = some 0xC1

theorem takeCaptureError_halts (s : State) :
    (takeCaptureError s).loop = .halted ∧ (takeCaptureError s).diagOut.getLast? = some 0xC1 := by
  simp [Cause.captureError_code]

theorem exec_run_loopOutcome (s : State) : ∃ t, exec .run s = .next t ∧ LoopOutcome s t := by
  refine exec_run_induction (fun _ _ => .inl rfl) (fun _ _ _ _ _ => .inr (takeCaptureError_halts _))
    (fun s bs rest u t _ _ hpass hrest => ?_) s
  have hloop : u.loop = s.loop := (framePass_loopKept hpass).loop_eq
  exact hrest.imp_left hloop.subst

/-- Settles O52: the request and `RUN` change the loop where they take an error, and no other operation but the halt
does. -/
theorem onlyCaptureErrorsHalt : Obligations.OnlyCaptureErrorsHalt := by
  unfold Obligations.OnlyCaptureErrorsHalt
  intro i s t hexec hloop
  by_cases hi : i ∈ [.nextFrame, .run, .captureError]
  · refine ⟨by simpa using hi, ?_⟩
    suffices houtcome : LoopOutcome s t from houtcome.resolve_left hloop
    simp only [List.mem_cons, List.not_mem_nil, or_false] at hi
    obtain rfl | rfl | rfl := hi
    · obtain rfl | ⟨-, ⟨_, _, -, rfl⟩ | ⟨_, _, -, rfl⟩⟩ := exec_nextFrame_cases hexec
      · exact .inl rfl
      · exact .inl rfl
      · exact .inr (takeCaptureError_halts _)
    · obtain ⟨u, hrun, houtcome⟩ := exec_run_loopOutcome s
      cases hrun.symm.trans hexec
      exact houtcome
    · cases hexec; exact .inr (takeCaptureError_halts s)
  · exact absurd (exec_loopKept hexec hi).loop_eq hloop

theorem nextFrame_answers {s t : State} (h : exec .nextFrame s = .next t) : t.answers <:+ s.answers := by
  obtain rfl | ⟨-, ⟨bs, rest, ha, rfl⟩ | ⟨e, rest, ha, rfl⟩⟩ := exec_nextFrame_cases h
  · exact List.suffix_rfl
  · exact ha ▸ List.suffix_cons _ rest
  · exact ha ▸ List.suffix_cons _ rest

/-- Settles O57: a request uses up the first answer, `RUN` is made of requests and passes, and no other operation bears
on the answers. -/
theorem answersAreUsedInOrder : Obligations.AnswersAreUsedInOrder := by
  unfold Obligations.AnswersAreUsedInOrder
  intro i s t hexec
  have hkept (hnext : i ≠ .nextFrame) (hrun : i ≠ .run) : t.answers = s.answers := by
    by_cases hhalt : i = .captureError
    · subst hhalt; cases hexec; rfl
    · exact (exec_loopKept hexec (by simp [*])).answers_eq
  refine ⟨?_, hkept⟩
  by_cases hnext : i = .nextFrame
  · subst hnext; exact nextFrame_answers hexec
  by_cases hrun : i = .run
  · subst hrun
    exact runLoop_induction (R := fun s t => t.answers <:+ s.answers) (fun _ => List.suffix_rfl)
      (fun _ _ _ hst htu => htu.trans hst) (fun _ _ => nextFrame_answers)
      (fun _ _ h => (framePass_loopKept h).answers_eq ▸ List.suffix_rfl) hexec
  · exact hkept hnext hrun ▸ List.suffix_rfl

/-! ## What a run sends -/

/-- All a pass can do on a frame in the buffer (R230, R253, R286). -/
theorem framePass_cases {s t : State} {bs : List Byte} (hf : FrameIn s bs) (h : exec .framePass s = .next t) :
    Ref.verdict bs ≠ .report ∧ Dropped s t (Ref.verdict bs).code
      ∨ Ref.verdict bs = .report ∧ s.sink.head? ≠ some .never ∧ Reported s (Ref.report bs) t
      ∨ Ref.verdict bs = .report ∧ s.sink.head? = some .never ∧ StuckWith s (Ref.report bs) t := by
  by_cases hv : Ref.verdict bs = .report
  · by_cases hnever : s.sink.head? = some .never
    · obtain ⟨u, hexec, hstuck⟩ := framePass_waits hf hv hnever
      cases hexec.symm.trans h
      exact .inr (.inr ⟨hv, hnever, hstuck⟩)
    · obtain ⟨u, hexec, hreported⟩ := framePass_reports hf hv hnever
      cases hexec.symm.trans h
      exact .inr (.inl ⟨hv, hnever, hreported⟩)
  · obtain ⟨u, hexec, hdropped⟩ := framePass_drops hf hv
    cases hexec.symm.trans h
    exact .inl ⟨hv, hdropped⟩

/-- After a pass that is over the loop makes its next request (R231, R239). -/
theorem PassOver.mayRequest {s t : State} (h : PassOver s t) (hloop : s.loop = .running) :
    Machine.mayRequest t = true := by
  obtain ⟨hstage, hinFlight, -, hpending, hkept, -⟩ := h
  exact mayRequest_iff.2 ⟨hkept.trans hloop, hstage, hinFlight, hpending⟩

theorem StuckWith.pending_ne_none {s t : State} {r : PacketReport} (h : StuckWith s r t) : t.pending ≠ none := by
  obtain ⟨u, -, -, -, -, rfl⟩ := h
  exact Option.some_ne_none _

theorem StuckWith.sink_eq {s t : State} {r : PacketReport} (h : StuckWith s r t) : t.sink = s.sink := by
  obtain ⟨u, hwrites, -, -, -, rfl⟩ := h
  exact hwrites.sink_eq

/-- The loop runs, and the block is about to request a frame or waits with a record pending. -/
def BetweenPasses (s : State) : Prop := s.loop = .running ∧ (mayRequest s = true ∨ s.pending ≠ none)

theorem BetweenPasses.of_mayRequest {s : State} (h : mayRequest s = true) : BetweenPasses s :=
  ⟨(mayRequest_iff.1 h).1, .inl h⟩

theorem framePass_betweenPasses {s t : State} {bs : List Byte} (hf : FrameIn s bs) (hloop : s.loop = .running)
    (h : exec .framePass s = .next t) : BetweenPasses t := by
  refine ⟨(framePass_loopKept h).loop_eq.trans hloop, ?_⟩
  obtain ⟨-, hover, -⟩ | ⟨-, -, hreported⟩ | ⟨-, -, hstuck⟩ := framePass_cases hf h
  · exact .inl (hover.mayRequest hloop)
  · exact .inl (hreported.passOver.mayRequest hloop)
  · exact .inr hstuck.pending_ne_none

theorem Ref.recordsOf_frame (bs : List Byte) (rest : List SourceAnswer) :
    Ref.recordsOf (.frame bs :: rest) = Ref.records bs ++ Ref.recordsOf rest := by
  by_cases h : Ref.verdict bs = .report <;> simp [Ref.recordsOf, Ref.framesOf, Ref.records, h]

theorem Ref.codesOf_frame (bs : List Byte) (rest : List SourceAnswer) :
    Ref.codesOf (.frame bs :: rest) = (Ref.verdict bs).code :: Ref.codesOf rest := by
  simp [Ref.codesOf, Ref.framesOf]

/-- The records sent, the one still pending included (R286). -/
def State.sent (s : State) : List PacketReport := s.reportOut ++ s.pending.toList

theorem State.sent_of_mayRequest {s : State} (h : mayRequest s = true) : s.sent = s.reportOut := by
  obtain ⟨-, -, -, hpending⟩ := mayRequest_iff.1 h
  simp [State.sent, hpending]

/-- The run from `s` has ended in `t`, with a first part of the records of the frames answered sent (R231, R282). -/
structure RunEnds (s t : State) : Prop where
  ended : t.loop = .halted ∨ t.answers = [] ∨ t.pending ≠ none
  error_of_halted : t.loop = .halted → ∃ e, SourceAnswer.error e ∈ s.answers
  sent_eq : ∃ n, t.sent = s.sent ++ (Ref.recordsOf s.answers).take n

theorem exec_run_ends {s : State} (h : BetweenPasses s) : ∃ t, exec .run s = .next t ∧ RunEnds s t := by
  suffices hall : ∃ t, exec .run s = .next t ∧ (BetweenPasses s → RunEnds s t) from
    hall.imp fun t ⟨hrun, hends⟩ => ⟨hrun, hends h⟩
  refine exec_run_induction (R := fun s t => BetweenPasses s → RunEnds s t) (fun s hwait hs => ?_)
    (fun s e rest hrequest ha _ => ?_) (fun s bs rest u t hrequest ha hpass hends _ => ?_) s
  · obtain ⟨hloop, hready⟩ := hs
    refine ⟨?_, fun hhalted => by simp [hloop] at hhalted, 0, by simp⟩
    obtain hwait | hwait := hwait
    · exact .inr (.inr (hready.resolve_left (by simp [hwait])))
    · exact .inr (.inl hwait)
  · exact ⟨.inl rfl, fun _ => ⟨e, by simp [ha]⟩, 0, by simp [State.sent, State.takeError]⟩
  · have hf := s.takeFrame_frameIn bs rest
    obtain ⟨hended, herror, n, hsent⟩ := hends (framePass_betweenPasses hf (mayRequest_iff.1 hrequest).1 hpass)
    have hanswers : u.answers = rest := (framePass_loopKept hpass).answers_eq
    obtain ⟨v, hv, hsends⟩ := framePass_sends hf
    cases hv.symm.trans hpass
    have hone : u.sent = s.sent ++ Ref.records bs := by
      rw [State.sent_of_mayRequest hrequest]; exact hsends.records_eq
    rw [hanswers] at herror hsent
    refine ⟨hended, fun hhalted => ?_, (Ref.records bs).length + n, ?_⟩
    · obtain ⟨e, he⟩ := herror hhalted
      exact ⟨e, ha ▸ List.mem_cons_of_mem _ he⟩
    · rw [hsent, hone, ha, Ref.recordsOf_frame, List.take_length_add_append, List.append_assoc]

/-- The run from `s` has ended in `t` with everything sent that its answers call for (R234, R282). -/
structure RunSendsAll (s t : State) : Prop where
  ended : t.loop = .halted ∨ t.answers = []
  halted_iff : t.loop = .halted ↔ ∃ e, SourceAnswer.error e ∈ s.answers
  pending_eq : t.pending = none
  reportOut_eq : t.reportOut = s.reportOut ++ Ref.recordsOf s.answers
  diagOut_eq : t.diagOut = s.diagOut ++ Ref.codesOf s.answers

/-- A pass whose record the sink takes, or that has none, sends all the reference says of its frame and is over. -/
theorem framePass_sendsAll {s t : State} {bs : List Byte} (hf : FrameIn s bs) (hsink : SinkTurn.never ∉ s.sink)
    (h : exec .framePass s = .next t) :
    PassOver s t ∧ SinkTurn.never ∉ t.sink ∧ t.reportOut = s.reportOut ++ Ref.records bs
      ∧ t.diagOut = s.diagOut ++ [(Ref.verdict bs).code] := by
  obtain ⟨hv, hover, -, hcodes, hreports, hkept⟩ | ⟨hv, -, hover, -, hcodes, hreports, htail⟩ | ⟨-, hnever, -⟩ :=
    framePass_cases hf h
  · exact ⟨hover, hkept ▸ hsink, by simpa [Ref.records, hv] using hreports, hcodes⟩
  · exact ⟨hover, htail ▸ fun hmem => hsink (List.mem_of_mem_tail hmem), by simpa [Ref.records, hv] using hreports,
      hv ▸ hcodes⟩
  · exact absurd (List.mem_of_head? hnever) hsink

theorem exec_run_sendsAll {s : State} (hrequest : mayRequest s = true) (hsink : SinkTurn.never ∉ s.sink) :
    ∃ t, exec .run s = .next t ∧ RunSendsAll s t := by
  suffices hall : ∃ t, exec .run s = .next t ∧ (mayRequest s = true → SinkTurn.never ∉ s.sink → RunSendsAll s t) from
    hall.imp fun t ⟨hrun, hsends⟩ => ⟨hrun, hsends hrequest hsink⟩
  refine exec_run_induction (R := fun s t => mayRequest s = true → SinkTurn.never ∉ s.sink → RunSendsAll s t)
    (fun s hwait hrequest _ => ?_) (fun s e rest hrequest ha _ _ => ?_)
    (fun s bs rest u t _ ha hpass hsends hrequest hsink => ?_) s
  · have ha : s.answers = [] := hwait.resolve_left (by simp [hrequest])
    obtain ⟨hloop, -, -, hpending⟩ := mayRequest_iff.1 hrequest
    exact ⟨.inr ha, by simp [ha, hloop], hpending, by simp [ha, Ref.recordsOf, Ref.framesOf],
      by simp [ha, Ref.codesOf, Ref.framesOf]⟩
  · obtain ⟨-, -, -, hpending⟩ := mayRequest_iff.1 hrequest
    exact ⟨.inl rfl, by simp [State.takeError, ha], hpending,
      by simp [State.takeError, ha, Ref.recordsOf, Ref.framesOf],
      by simp [State.takeError, ha, Ref.codesOf, Ref.framesOf, Cause.captureError_code]⟩
  · obtain ⟨hover, husink, hreports, hcodes⟩ := framePass_sendsAll (s.takeFrame_frameIn bs rest) hsink hpass
    have hanswers : u.answers = rest := (framePass_loopKept hpass).answers_eq
    obtain ⟨hended, hhalted, hpending, hrest, hcodesRest⟩ :=
      hsends (hover.mayRequest (mayRequest_iff.1 hrequest).1) husink
    rw [hanswers] at hhalted hrest hcodesRest
    refine ⟨hended, by simp [hhalted, ha], hpending, ?_, ?_⟩
    · rw [hrest, hreports, ha, Ref.recordsOf_frame, List.append_assoc]; rfl
    · rw [hcodesRest, hcodes, ha, Ref.codesOf_frame, List.append_assoc]; rfl

/-- Settles O39: `RUN` ends by the induction on the answers, with a first part of the records sent, and with all of them
where the sink takes what it is offered. -/
theorem runCompletes : Obligations.RunCompletes := by
  unfold Obligations.RunCompletes
  intro s hloop hstage hinFlight hpending
  have hrequest := mayRequest_iff.2 ⟨hloop, hstage, hinFlight, hpending⟩
  refine ⟨?_, fun hsink => ?_⟩
  · obtain ⟨t, hrun, hended, herror, n, hsent⟩ := exec_run_ends (.of_mayRequest hrequest)
    rw [State.sent_of_mayRequest hrequest] at hsent
    exact ⟨t, n, hrun, hended, herror, hsent⟩
  · obtain ⟨t, hrun, hended, hhalted, hnone, hreports, hcodes⟩ := exec_run_sendsAll hrequest hsink
    exact ⟨t, hrun, hended, hhalted, hnone, hreports, hcodes⟩

/-! ## The steps of a run -/

theorem run_add {k : Nat} {s t : State} (h : Host.Core.run core k s = .next t) (n : Nat) :
    Host.Core.run core (k + n) s = Host.Core.run core n t := by
  induction k generalizing s with
  | zero => cases h; rw [Nat.zero_add]
  | succ k ih =>
    rw [Nat.add_right_comm]
    simp only [Host.Core.run, core] at h ⊢
    cases hstep : step s with
    | next u => rw [hstep] at h; exact ih h
    | fault f => rw [hstep] at h; cases h
    | refused r => rw [hstep] at h; cases h

theorem ComesTo.trans {m n : Nat} {s t : State} {o : Host.Outcome State Fault Refusal} (hst : ComesTo m s (.next t))
    (hto : ComesTo n t o) : ComesTo (m + n) s o := by
  obtain ⟨k, hk, hrun⟩ := hst
  obtain ⟨l, hl, rfl⟩ := hto
  exact ⟨k + l, Nat.add_le_add hk hl, run_add hrun l⟩

/-- One parsing stage as one step of a pass that drops its frame: the sink is not turned to, whichever stage it is that
raises. -/
theorem stage_comesTo_drop {i j : Instr} {f rest : State → Flow} {s u : State} {c : Cause} {n : Nat} (hop : s.op = none)
    (hreset : s.resetIn = []) (hexec : exec i s = settle (f s))
    (hseq : ∀ t, sequence i t = { t with op := stageOp t.stage }) (hwithin : (f s).Within s)
    (hstage : ∀ t, f s = .ok t → stageOp t.stage = some j)
    (hrest : ∀ t : State, t.op = none → t.resetIn = [] → rest t = .raised c u →
      ComesTo n (t.atOp j) (.next (takeRaise c u)))
    (hdrop : (f s).andThen rest = .raised c u) : ComesTo (n + 1) (s.atOp i) (.next (takeRaise c u)) := by
  cases hf : f s with
  | ok t =>
    rw [hf] at hexec hwithin hdrop
    have hnext : sequence i t = t.atOp j := by rw [hseq, hstage t hf]; rfl
    refine .step_next (step_atOp_next hop hreset hexec) ?_
    rw [hnext]
    exact hrest t (hwithin.op_eq.trans hop) (hwithin.resetIn_eq.trans hreset) hdrop
  | raised d t =>
    rw [hf] at hexec hwithin hdrop
    cases hdrop
    have hover : sequence i (takeRaise c u) = takeRaise c u :=
      (hseq _).trans (State.op_none_self (hwithin.op_eq.trans hop))
    refine .step_next (step_atOp_next hop hreset hexec) ?_
    rw [hover]
    exact .here _ _
  | fault g => rw [hf] at hdrop; cases hdrop

section
variable {s u : State} {c : Cause} (hop : s.op = none) (hreset : s.resetIn = [])
include hop hreset

theorem tcpParse_comesTo_drop (h : runOps [opTcpParse, opRender] s = .raised c u) :
    ComesTo 1 (s.atOp .tcpParse) (.next (takeRaise c u)) := by
  refine stage_comesTo_drop (j := .render) hop hreset rfl (fun _ => rfl) (opTcpParse_within s) (fun t ht => ?_)
    (fun t _ _ ht => ?_) h
  · rw [opTcpParse_stage ht]; rfl
  · rw [runOps_cons, show runOps [] = Flow.ok from rfl, Flow.andThen_ok] at ht
    have hnoRaise := opRender_noRaise t
    rw [ht] at hnoRaise
    exact hnoRaise.elim

theorem ipv4Parse_comesTo_drop (h : runOps [opIpv4Parse, opTcpParse, opRender] s = .raised c u) :
    ComesTo 2 (s.atOp .ipv4Parse) (.next (takeRaise c u)) := by
  refine stage_comesTo_drop hop hreset rfl (fun _ => rfl) (opIpv4Parse_within s) (fun t ht => ?_)
    (fun t => tcpParse_comesTo_drop) h
  rw [opIpv4Parse_stage ht]; rfl

/-- A pass that drops its frame takes at most three steps, whatever the sink (R253). -/
theorem ethParse_comesTo_drop (h : opStages s = .raised c u) :
    ComesTo 3 (s.atOp .ethParse) (.next (takeRaise c u)) := by
  refine stage_comesTo_drop hop hreset rfl (fun _ => rfl) (opEthParse_within s) (fun t ht => ?_)
    (fun t => ipv4Parse_comesTo_drop) h
  rw [opEthParse_stage ht]; rfl

end

/-- The turns the sink lets all the records to come wait. -/
def State.sinkWaits (s : State) : Nat := (s.sink.map SinkTurn.wait).sum

theorem State.sinkWaits_congr {s t : State} (h : t.sink = s.sink) : t.sinkWaits = s.sinkWaits := by
  rw [State.sinkWaits, h, State.sinkWaits]

/-- The turns of the next record and of the records after it. -/
theorem State.sinkWaits_eq (s : State) : s.sinkWaits = s.sinkWait + (s.sink.tail.map SinkTurn.wait).sum := by
  unfold State.sinkWaits State.sinkWait
  cases s.sink <;> simp

/-- A pass takes at most six steps and the turns of the sink that it uses up: a frame dropped uses none, and waits for
none. -/
theorem pass_comesTo {s t : State} {bs : List Byte} (hf : FrameIn s bs) (hop : s.op = none) (hreset : s.resetIn = [])
    (h : exec .framePass s = .next t) :
    ∃ n, ComesTo n (s.atOp .ethParse) (.next t) ∧ n + t.sinkWaits ≤ 6 + s.sinkWaits := by
  have hall : ComesTo (s.sinkWait + 6) (s.atOp .ethParse) (.next t) := h ▸ ethParse_comesTo hop hreset
  obtain ⟨hv, hdropped⟩ | ⟨-, -, hreported⟩ | ⟨-, hnever, hstuck⟩ := framePass_cases hf h
  · obtain ⟨-, -, -, -, hsink⟩ := hdropped
    obtain ⟨c, hc⟩ := Option.ne_none_iff_exists'.1 (mt Ref.verdict_eq_report_iff.2 hv)
    obtain ⟨u, hu⟩ := opStages_raised hf hc
    rw [exec_framePass, hu] at h
    cases h
    exact ⟨3, ethParse_comesTo_drop hop hreset hu, by rw [State.sinkWaits_congr hsink]; omega⟩
  · have hrest : t.sinkWaits = (s.sink.tail.map SinkTurn.wait).sum := by rw [State.sinkWaits, hreported.sink_eq]
    refine ⟨_, hall, ?_⟩
    rw [hrest, s.sinkWaits_eq]
    omega
  · have hwait : s.sinkWait = 0 := by simp [State.sinkWait, hnever, SinkTurn.wait]
    exact ⟨_, hall, by rw [State.sinkWaits_congr hstuck.sink_eq]; omega⟩

theorem step_nextFrame {s t : State} (hop : s.op = none) (hreset : s.resetIn = []) (hrequest : mayRequest s = true)
    (hexec : exec .nextFrame s = .next t) : step s = .next (sequence .nextFrame t) := by
  rw [step_eq_stepOp hreset]
  exact stepOp_next (nextOp_of_running hop (mayRequest_iff.1 hrequest).1) ((State.op_none_self hop).symm ▸ hexec)

/-- The loop's own request is next, or none may be made, and then `RUN` does nothing (R237, R286). -/
def AtRequest (s : State) : Prop := s.op = none ∨ mayRequest s = false

theorem AtRequest.op_eq {s : State} (h : AtRequest s) (hrequest : mayRequest s = true) : s.op = none :=
  h.resolve_right (by simp [hrequest])

theorem framePass_atRequest {s t : State} {bs : List Byte} (hf : FrameIn s bs) (hop : s.op = none)
    (h : exec .framePass s = .next t) : AtRequest t ∧ t.resetIn = s.resetIn := by
  obtain ⟨-, hover, -⟩ | ⟨-, -, hreported⟩ | ⟨-, -, hstuck⟩ := framePass_cases hf h
  · obtain ⟨-, -, -, -, -, hkept, -, -, -, hreset, -⟩ := hover
    exact ⟨.inl (hkept.trans hop), hreset⟩
  · obtain ⟨-, -, -, -, -, hkept, -, -, -, hreset, -⟩ := hreported.passOver
    exact ⟨.inl (hkept.trans hop), hreset⟩
  · refine ⟨.inr (mayRequest_eq_false (.inr (.inr (.inr hstuck.pending_ne_none)))), ?_⟩
    obtain ⟨u, hwrites, -, -, -, rfl⟩ := hstuck
    exact hwrites.resetIn_eq

/-- The steps from an idle state come to what `RUN` does, by the induction on the answers: one step for each request,
and the steps of the pass it starts. -/
theorem run_comesTo (s : State) (hat : AtRequest s) (hreset : s.resetIn = []) :
    ComesTo (7 * s.answers.length + s.sinkWaits) s (exec .run s) := by
  suffices hall : ∃ t, exec .run s = .next t
      ∧ (AtRequest s → s.resetIn = [] → ComesTo (7 * s.answers.length + s.sinkWaits) s (.next t)) by
    obtain ⟨t, hrun, hcomes⟩ := hall
    exact hrun ▸ hcomes hat hreset
  refine exec_run_induction
    (R := fun s t => AtRequest s → s.resetIn = [] → ComesTo (7 * s.answers.length + s.sinkWaits) s (.next t))
    (fun s _ _ _ => .here _ s) (fun s e rest hrequest ha hat hreset => ?_)
    (fun s bs rest u t hrequest ha hpass hcomes hat hreset => ?_) s
  · have hop := hat.op_eq hrequest
    have hstep := step_nextFrame hop hreset hrequest (exec_nextFrame_error hrequest ha)
    obtain ⟨-, -, hinFlight, -⟩ := mayRequest_iff.1 hrequest
    have hidle : sequence .nextFrame (s.takeError e rest) = s.takeError e rest := by
      rw [sequence_nextFrame_none (t := s.takeError e rest) hinFlight]
      exact State.op_none_self hop
    rw [hidle] at hstep
    exact (ComesTo.step_next hstep (.here 0 _)).mono (by rw [ha, List.length_cons]; omega)
  · have hop := hat.op_eq hrequest
    have hf := s.takeFrame_frameIn bs rest
    have hstep := step_nextFrame hop hreset hrequest (exec_nextFrame_frame hrequest ha)
    rw [sequence_nextFrame_frame rfl] at hstep
    obtain ⟨n, hsteps, hn⟩ := pass_comesTo hf hop hreset hpass
    obtain ⟨hatu, hresetu⟩ := framePass_atRequest hf hop hpass
    have hanswers : u.answers = rest := (framePass_loopKept hpass).answers_eq
    have hwaits : (s.takeFrame bs rest).sinkWaits = s.sinkWaits := rfl
    refine (ComesTo.step_next hstep (hsteps.trans (hcomes hatu (hresetu.trans hreset)))).mono ?_
    rw [ha, hanswers, List.length_cons]
    omega

/-- Settles O51: an idle block that meets the invariant has come to no operation. -/
theorem stepsMakeTheRun : Obligations.StepsMakeTheRun := by
  unfold Obligations.StepsMakeTheRun
  intro s _ hop hreset
  exact run_comesTo s (.inl hop) hreset

end Sys2Proof.Machine

/-! SUPPORT. What a pass depends on (44_frame_pass_and_host.md R238): each operation's result is determined by a view of
the state, from the buffer and `L` alone at the start to the record and `STATUS` at the end. A view names what the
operations so far have written; what no operation has written yet is in none. -/

namespace Sys2Proof.Machine

/-! ## Views of a state -/

section
variable {α β γ : Type} {U : State → α} {V : State → β} {W : State → γ}

/-- What an answer shows through a view: the view of where it goes on, the cause of a raise, or the fault. -/
def Flow.seen (V : State → β) : Flow → β ⊕ (Cause ⊕ Fault)
  | .ok s => .inl (V s)
  | .raised c _ => .inr (.inl c)
  | .fault f => .inr (.inr f)

/-- Through the view `V`, the operation's answer depends on no more of the state than the view `U`. -/
def Determines (U : State → α) (f : State → Flow) (V : State → β) : Prop :=
  ∀ s t, U s = U t → (f s).seen V = (f t).seen V

theorem Determines.andThen {f k : State → Flow} (hf : Determines U f V) (hk : Determines V k W) :
    Determines U (fun s => (f s).andThen k) W := by
  intro s t h
  have hseen := hf s t h
  show ((f s).andThen k).seen W = ((f t).andThen k).seen W
  cases hs : f s <;> cases ht : f t <;>
    simp only [hs, ht, Flow.seen, Sum.inl.injEq, Sum.inr.injEq, reduceCtorEq] at hseen
  · exact hk _ _ hseen
  · exact congrArg (Sum.inr ∘ Sum.inl) hseen
  · exact congrArg (Sum.inr ∘ Sum.inr) hseen

theorem Determines.nil : Determines U (runOps []) U := fun _ _ h => congrArg Sum.inl h

theorem Determines.cons {f : State → Flow} {fs : List (State → Flow)} (hf : Determines U f V)
    (hfs : Determines V (runOps fs) W) : Determines U (runOps (f :: fs)) W := hf.andThen hfs

theorem Determines.ok {g : State → State} (h : ∀ s t, U s = U t → V (g s) = V (g t)) :
    Determines U (fun s => .ok (g s)) V := fun s t hst => congrArg Sum.inl (h s t hst)

theorem Determines.raiseIf {bad : State → Bool} {c : Cause} (h : ∀ s t, U s = U t → bad s = bad t) :
    Determines U (fun s => Machine.raiseIf (bad s) c s) U := by
  intro s t hst
  show (Machine.raiseIf (bad s) c s).seen U = (Machine.raiseIf (bad t) c t).seen U
  rw [h s t hst]
  cases bad t
  · exact congrArg Sum.inl hst
  · rfl

/-- A test that raises on a length below a bound, both in view. -/
theorem Determines.raiseIf_lt {m n : State → Nat} {c : Cause} (h : ∀ s t, U s = U t → m s = m t ∧ n s = n t) :
    Determines U (fun s => Machine.raiseIf (m s < n s) c s) U :=
  .raiseIf fun s t hst => by rw [(h s t hst).1, (h s t hst).2]

end

/-! ## Field extractions -/

/-- The frame, the slice a stage is handed, and what `V` shows besides. -/
def sliceView {α : Type} (off len : State → Nat) (V : State → α) (s : State) : Memory × Nat × Nat × Nat × α :=
  (s.fb, s.len, off s, len s, V s)

/-- A read depends on the frame and its slice alone (20_memory.md R41, R53). -/
theorem memReadIn_congr {s t : State} (hfb : s.fb = t.fb) (hlen : s.len = t.len) (off len addr : Nat) (w : Width) :
    memReadIn s off len addr w = memReadIn t off len addr w := by
  simp only [memReadIn, memRead, hfb, hlen]

section
variable {α β : Type} {V : State → α} {put : Regs → Nat → Regs}

/-- A field extraction leaves what the views show, and shows the field it has written besides. -/
theorem readInto_seen {off len : State → Nat} {field : Regs → β} {s t : State} (addr : Nat → Nat) (w : Width)
    (hst : sliceView off len V s = sliceView off len V t)
    (hkept : ∀ s v, sliceView off len V (s.putRegs (put s.regs v)) = sliceView off len V s)
    (hfield : ∀ r r' v, field (put r v) = field (put r' v)) :
    (readInto (off s) (len s) (addr (off s)) w put s).seen (sliceView off len fun s => (V s, field s.regs))
      = (readInto (off t) (len t) (addr (off t)) w put t).seen (sliceView off len fun s => (V s, field s.regs)) := by
  have hst' := hst
  simp only [sliceView, Prod.mk.injEq] at hst' hkept
  obtain ⟨hfb, hlen, hoff, hslice, hV⟩ := hst'
  rw [readInto, readInto, memReadIn_congr hfb hlen, hoff, hslice]
  cases memReadIn t (off t) (len t) (addr (off t)) w with
  | none => rfl
  | some v =>
    obtain ⟨hsfb, hslen, hsoff, hsslice, hsV⟩ := hkept s v
    obtain ⟨htfb, htlen, htoff, htslice, htV⟩ := hkept t v
    simp only [Flow.seen, sliceView, hsfb, hslen, hsoff, hsslice, hsV, htfb, htlen, htoff, htslice, htV, hfb, hlen,
      hoff, hslice, hV, State.putRegs_regs, hfield s.regs t.regs v]

/-- The slice `(0, L)` (R60). -/
abbrev ethView (V : State → α) := sliceView (fun _ => 0) State.len V
/-- The slice `(IP_OFF, IP_LEN)` (R61). -/
abbrev ipView (V : State → α) := sliceView (fun s => s.regs.ipOff) (fun s => s.regs.ipLen) V
/-- The slice `(SEG_OFF, SEG_LEN)` (R62). -/
abbrev segView (V : State → α) := sliceView (fun s => s.regs.segOff) (fun s => s.regs.segLen) V
/-- The slice `(PAY_OFF, PAY_LEN)` (R194). -/
abbrev payView (V : State → α) := sliceView (fun s => s.regs.payOff) (fun s => s.regs.payLen) V

theorem Determines.readEth {f : FieldAt} (field : Regs → β)
    (hkept : ∀ s v, ethView V (s.putRegs (put s.regs v)) = ethView V s := by intros; rfl)
    (hfield : ∀ r r' v, field (put r v) = field (put r' v) := by intros; rfl) :
    Determines (ethView V) (readEth f put) (ethView fun s => (V s, field s.regs)) := fun _ _ hst =>
  readInto_seen (fun _ => f.offset) f.width hst hkept hfield

theorem Determines.readIp {f : FieldAt} (field : Regs → β)
    (hkept : ∀ s v, ipView V (s.putRegs (put s.regs v)) = ipView V s := by intros; rfl)
    (hfield : ∀ r r' v, field (put r v) = field (put r' v) := by intros; rfl) :
    Determines (ipView V) (readIp f put) (ipView fun s => (V s, field s.regs)) := fun _ _ hst =>
  readInto_seen (fun _ => Config.ethHdrLen + f.offset) f.width hst hkept hfield

theorem Determines.readTcp {f : FieldAt} (field : Regs → β)
    (hkept : ∀ s v, segView V (s.putRegs (put s.regs v)) = segView V s := by intros; rfl)
    (hfield : ∀ r r' v, field (put r v) = field (put r' v) := by intros; rfl) :
    Determines (segView V) (readTcp f put) (segView fun s => (V s, field s.regs)) := fun _ _ hst =>
  readInto_seen (fun off => off + f.offset) f.width hst hkept hfield

end

/-! ## The stages -/

/-- The Ethernet stage: from the frame alone to the slice it hands on (R100). -/
theorem opEthParse_determines : Determines (fun s => (s.fb, s.len)) opEthParse (ipView fun _ => ()) := by
  have hstage : Determines (ethView fun _ => ()) (runOps [opEthLenchk, opEthDst, opEthSrc, opEthType, opEthRest,
      opEthDispatch]) (ipView fun _ => ()) := by
    refine .cons (.raiseIf_lt fun s t h => ?_) <| .cons (.readEth fun _ => ()) <| .cons (.readEth fun _ => ()) <|
      .cons (.readEth Regs.ethType) <|
      .cons (V := ipView fun s => s.regs.ethType) (.ok fun s t h => ?_) <|
      .cons (.andThen (.raiseIf fun s t h => ?_) (.ok fun s t h => ?_)) .nil
    all_goals simp only [sliceView, Prod.mk.injEq] at h
    all_goals simp [sliceView, h]
  intro s t h
  refine hstage (s.putStage .eth) (t.putStage .eth) ?_
  simp only [Prod.mk.injEq] at h
  simp [sliceView, h]

/-- What the record copies from the registers of the IPv4 header (R191). -/
def ipCopied (s : State) : Half × Word × Word := (s.regs.ipTotlen, s.regs.ipSrc, s.regs.ipDst)

/-- The IPv4 stage: from the slice it is handed to the one it hands on, and the fields the record copies (R120). -/
theorem opIpv4Parse_determines : Determines (ipView fun _ => ()) opIpv4Parse (segView ipCopied) := by
  refine .cons (.raiseIf_lt fun s t h => ?_) <| .cons (.readIp Regs.ipVihl) <|
    .cons (V := ipView fun s => s.regs.ipHlen) (.andThen (.raiseIf_lt fun s t h => ?_) (.ok fun s t h => ?_)) <|
    .cons (.raiseIf_lt fun s t h => ?_) <| .cons (.readIp Regs.ipTotlen) <| .cons (.readIp Regs.ipProto) <|
    .cons (.readIp Regs.ipSrc) <| .cons (.readIp Regs.ipDst) <|
    .cons (V := segView fun s => (s.regs.ipProto, ipCopied s))
      (.andThen (.raiseIf_lt fun s t h => ?_) (.ok fun s t h => ?_)) <|
    .cons (.andThen (.raiseIf fun s t h => ?_) (.ok fun s t h => ?_)) .nil
  all_goals simp only [sliceView, ipCopied, Prod.mk.injEq] at h
  all_goals simp [sliceView, ipCopied, ihl, h]

/-- The record but for its preview (R191). -/
def copied (s : State) : PacketReport := assemble { s.regs with pvLen := 0 } []

/-- The TCP stage: from the segment and the fields read so far to the payload and the record's copies (R150). -/
theorem opTcpParse_determines : Determines (segView ipCopied) opTcpParse (payView copied) := by
  refine .cons (.raiseIf_lt fun s t h => ?_) <| .cons (.readTcp Regs.tcpSport) <| .cons (.readTcp Regs.tcpDport) <|
    .cons (.readTcp Regs.tcpSeq) <| .cons (.readTcp Regs.tcpAck) <|
    .cons (.readTcp fun r => (r.tcpDoff, r.tcpHlen)) <| .cons (.raiseIf_lt fun s t h => ?_) <|
    .cons (.raiseIf_lt fun s t h => ?_) <| .cons (.readTcp Regs.tcpFlags) <| .cons (.readTcp Regs.tcpWin) <|
    .cons (V := segView fun s => (s.regs.tcpHlen, copied { s with regs.payLen := 0 }))
      (.ok fun s t h => ?_) <| .cons (.ok fun s t h => ?_) .nil
  all_goals simp only [sliceView, ipCopied, copied, assemble, Prod.mk.injEq, PacketReport.mk.injEq] at h
  all_goals simp [sliceView, copied, assemble, h]

/-! ## The report stage -/

/-- The record but for its preview, once the preview's length is known (R191, R192). -/
def recordCopied (s : State) : PacketReport := assemble s.regs []

/-- The first `i` bytes of the preview are written (R194). -/
abbrev previewView (i : Nat) := payView fun s => (recordCopied s, s.pv.toList.take i)

theorem opPreviewLen_determines : Determines (payView copied) opPreviewLen (previewView 0) := by
  refine .ok fun s t h => ?_
  simp only [sliceView, copied, assemble, Prod.mk.injEq, PacketReport.mk.injEq] at h
  simp [sliceView, recordCopied, assemble, h]

theorem preview_take_set (p : Preview) {i : Nat} (hi : i < 64) (b : Byte) :
    (p.set i b hi).toList.take (i + 1) = p.toList.take i ++ [b] := by
  rw [Vector.toList_set, List.take_add_one, List.take_set_of_le le_rfl]
  simp [hi]

/-- One turn of the loop of R194 writes the same byte from two states that agree so far, or stops both alike. -/
theorem buildOne_alike {i : Nat} {s t : State} (h : previewView i s = previewView i t) :
    (∃ p q, buildOne i s = .ok { s with pv := p } ∧ buildOne i t = .ok { t with pv := q }
        ∧ previewView (i + 1) { s with pv := p } = previewView (i + 1) { t with pv := q })
      ∨ ∃ f, buildOne i s = .fault f ∧ buildOne i t = .fault f := by
  simp only [previewView, sliceView, Prod.mk.injEq] at h
  obtain ⟨hfb, hlen, hpayOff, hpayLen, hcopied, hpreview⟩ := h
  rw [buildOne, buildOne, memReadIn_congr hfb hlen, hpayOff, hpayLen]
  cases memReadIn t t.regs.payOff t.regs.payLen (t.regs.payOff + i) .b1 with
  | none => exact .inr ⟨_, rfl, rfl⟩
  | some v =>
    by_cases hi : i < 64
    · refine .inl ⟨_, _, memWrite_in s hi _, memWrite_in t hi _, ?_⟩
      simp only [sliceView, Prod.mk.injEq, preview_take_set, hpreview, and_true]
      exact ⟨hfb, hlen, hpayOff, hpayLen, hcopied⟩
    · exact .inr ⟨.previewOutOfRange i, by simp [memWrite, hi], by simp [memWrite, hi]⟩

/-- The preview written in full. -/
abbrev builtView := payView fun s => (recordCopied s, s.pv.toList.take s.regs.pvLen.toNat)

theorem buildFrom_seen (n i : Nat) {s t : State} (h : previewView i s = previewView i t)
    (hn : s.regs.pvLen.toNat = i + n) : (buildFrom n i s).seen builtView = (buildFrom n i t).seen builtView := by
  induction n generalizing i s t with
  | zero =>
    have hpvLen : s.regs.pvLen = t.regs.pvLen := congrArg (fun v => v.2.2.2.2.1.previewLen) h
    refine congrArg Sum.inl ?_
    simp only [sliceView] at h ⊢
    rw [← hpvLen, hn]
    exact h
  | succ n ih =>
    rw [buildFrom, buildFrom]
    obtain ⟨p, q, hs, ht, hpq⟩ | ⟨f, hs, ht⟩ := buildOne_alike h
    · rw [hs, ht]
      exact ih (i + 1) hpq (by rw [hn]; omega)
    · rw [hs, ht]

theorem opPreviewBuild_determines : Determines (previewView 0) opPreviewBuild builtView := by
  intro s t h
  have hpvLen : s.regs.pvLen = t.regs.pvLen := congrArg (fun v => v.2.2.2.2.1.previewLen) h
  rw [opPreviewBuild, opPreviewBuild, ← hpvLen]
  exact buildFrom_seen _ 0 h (Nat.zero_add _).symm

theorem opReportAssemble_determines : Determines builtView opReportAssemble fun s => s.regs.report := by
  intro s t h
  simp only [builtView, sliceView, Prod.mk.injEq] at h
  obtain ⟨-, -, -, -, hcopied, hpreview⟩ := h
  have hpvLen : s.regs.pvLen = t.regs.pvLen := congrArg PacketReport.previewLen hcopied
  have hassemble (bs : List Byte) : assemble s.regs bs = assemble t.regs bs :=
    congrArg (fun r : PacketReport => { r with preview := bs }) hcopied
  have hread : readPreview s.pv s.regs.pvLen.toNat = readPreview t.pv t.regs.pvLen.toNat := by
    rw [readPreview, readPreview, hpreview, hpvLen]
  rw [opReportAssemble, opReportAssemble, hread]
  cases readPreview t.pv t.regs.pvLen.toNat with
  | none => rfl
  | some bs => exact congrArg Sum.inl (hassemble bs)

/-- The report stage: from the payload and the record's copies to the record (R190). -/
theorem opRender_determines : Determines (payView copied) opRender fun s => (s.regs.report, s.status) :=
  .andThen (.cons opPreviewLen_determines <| .cons opPreviewBuild_determines <| .cons opReportAssemble_determines .nil)
    (.ok fun _ _ h => congrArg (·, Cause.report.code) h)

/-! ## The pass -/

/-- The stages' outcome, the record and the status included, is determined by the buffer and `L` (R238). -/
theorem opStages_determines : Determines (fun s => (s.fb, s.len)) opStages fun s => (s.regs.report, s.status) :=
  .cons opEthParse_determines <| .cons opIpv4Parse_determines <| .cons opTcpParse_determines <|
    .cons opRender_determines .nil

/-- The pass has sent `records`, the one still pending included, and the code. -/
structure Sends (s : State) (records : List PacketReport) (code : Byte) (t : State) : Prop where
  records_eq : t.reportOut ++ t.pending.toList = s.reportOut ++ records
  status_eq : t.status = code
  diagOut_eq : t.pending = none → t.diagOut = s.diagOut ++ [code]

theorem StageWrites.finishPass_sends {s u : State} (h : StageWrites s u) :
    Sends s [u.regs.report] u.status (finishPass u) where
  records_eq := by rw [finishPass_sent, h.reportOut_eq]
  status_eq := finishPass_status u
  diagOut_eq hp := by rw [finishPass_diagOut hp, h.diagOut_eq]

theorem StageWrites.takeRaise_sends {s u : State} (h : StageWrites s u) (c : Cause) :
    Sends s [] c.code (takeRaise c u) where
  records_eq := by rw [takeRaise_reportOut, takeRaise_pending, h.reportOut_eq]; rfl
  status_eq := rfl
  diagOut_eq _ := by rw [takeRaise_diagOut, h.diagOut_eq]

/-- Settles O42: the stages of the two passes end alike, with the same record and status, the same cause or the same
fault. -/
theorem passDependsOnTheFrameAlone : Obligations.PassDependsOnTheFrameAlone := by
  unfold Obligations.PassDependsOnTheFrameAlone
  intro s₁ s₂ hfb hlen
  have hseen := opStages_determines s₁ s₂ (Prod.ext hfb hlen)
  have hwrites₁ := opStages_within s₁
  have hwrites₂ := opStages_within s₂
  rw [exec_framePass, exec_framePass]
  cases h₁ : opStages s₁ <;> cases h₂ : opStages s₂ <;> rw [h₁] at hwrites₁ <;> rw [h₂] at hwrites₂ <;>
    simp only [h₁, h₂, Flow.seen, Sum.inl.injEq, Sum.inr.injEq, Prod.mk.injEq, reduceCtorEq] at hseen
  case ok.ok u₁ u₂ =>
    obtain ⟨hrecords₁, hstatus₁, hcodes₁⟩ := StageWrites.finishPass_sends hwrites₁
    obtain ⟨hrecords₂, hstatus₂, hcodes₂⟩ := StageWrites.finishPass_sends hwrites₂
    obtain ⟨hreport, hstatus⟩ := hseen
    rw [← hreport] at hrecords₂
    rw [← hstatus] at hstatus₂ hcodes₂
    exact .inl ⟨_, _, _, _, rfl, rfl, hrecords₁, hrecords₂, hstatus₁, hstatus₂, hcodes₁, hcodes₂⟩
  case raised.raised c u₁ d u₂ =>
    subst hseen
    obtain ⟨hrecords₁, hstatus₁, hcodes₁⟩ := StageWrites.takeRaise_sends hwrites₁ c
    obtain ⟨hrecords₂, hstatus₂, hcodes₂⟩ := StageWrites.takeRaise_sends hwrites₂ c
    exact .inl ⟨_, _, _, _, rfl, rfl, hrecords₁, hrecords₂, hstatus₁, hstatus₂, hcodes₁, hcodes₂⟩
  case fault.fault f g =>
    subst hseen
    exact .inr ⟨f, rfl, rfl⟩

end Sys2Proof.Machine

/-! SUPPORT. Reset and the hazards (70_reset_and_hazards.md): when a step reads the reset input, that no operation a run
comes to stops, and the turns of the block while the sink holds a record. -/

namespace Sys2Proof.Machine

/-! ## The step and the reset input -/

/-- A step where reset is asserted is the reset (R280). -/
theorem step_reset_asserted {s : State} {rest : List Nat} (h : s.resetIn = 0 :: rest) :
    step s = .next (takeReset { s with resetIn := rest }) := by
  simp only [step, readReset, h]

/-- A planned reset comes one operation nearer, and the step is the sequence's (R280). -/
theorem step_reset_nearer {s : State} {n : Nat} {rest : List Nat} (h : s.resetIn = (n + 1) :: rest) :
    step s = stepOp { s with resetIn := n :: rest } := by
  simp only [step, readReset, h]

/-- Settles O7: a reset is one step, and one still to come only counts down. -/
theorem resetAbandonsThePass : Obligations.ResetAbandonsThePass := by
  unfold Obligations.ResetAbandonsThePass
  refine ⟨fun s rest h => ?_, fun s n rest => step_reset_nearer⟩
  have hsink : (takeReset { s with resetIn := rest }).sink = if s.pending = none then s.sink else s.sink.tail := by
    simp only [takeReset, Option.isSome_iff_ne_none, ite_not]
  exact ⟨_, step_reset_asserted h, rfl, rfl, rfl, rfl, rfl, rfl, rfl, rfl, rfl, rfl, rfl, rfl, hsink, rfl, rfl⟩

/-! ## No operation a run comes to stops -/

/-- A frame is in flight from a pass's first operation to its last (R230). -/
theorem OpInv.inFlight {s : State} {i : Instr} (h : OpInv (s.atOp i)) : s.inFlight = true := by
  unfold OpInv at h
  split at h <;> simp_all [State.atOp]

theorem Inv.frameIn {s : State} {i : Instr} (h : Inv (s.atOp i)) : ∃ bs, FrameIn s bs := by
  have hinFlight := h.opInv.inFlight
  obtain ⟨-, -, hframe, -, -, -, -⟩ := h
  exact hframe hinFlight

/-- A stage the reference has an answer for goes on, or raises and ends the pass (R253). -/
theorem Flow.Gives.settle_next {cause : Option Cause} {t : State} {r : Flow} (h : r.Gives cause t) :
    ∃ u, settle r = .next u := by
  cases cause with
  | some c =>
    obtain ⟨u, rfl⟩ := h
    exact ⟨_, rfl⟩
  | none => exact ⟨t, congrArg settle h⟩

/-- The report stage goes on from every payload that lies in the frame (R45, R190). -/
theorem opRender_goesOn {s : State} {bs : List Byte} (hf : FrameIn s bs)
    (hframe : s.regs.payOff + s.regs.payLen ≤ bs.length) : ∃ t, opRender s = .ok t := by
  have hpvLen := s.previewSized_pvLen
  have hlen : opPreviewLen s = .ok s.previewSized := rfl
  have hpayOff : s.previewSized.regs.payOff = s.regs.payOff := rfl
  obtain ⟨p, hbuild, -⟩ := opPreviewBuild_written (s := s.previewSized) hf (hpvLen ▸ min_le_right _ _)
    (hpvLen ▸ min_le_left _ _) (by omega)
  have hread : readPreview p s.previewSized.regs.pvLen.toNat = _ := readPreview_in p (hpvLen ▸ min_le_right _ _)
  simp only [opRender, runOps_cons, runOps_nil, hlen, hbuild, opReportAssemble, hread, Flow.ok_andThen]
  exact ⟨_, rfl⟩

/-- Every operation a run comes to answers a next state: each slice is inside the frame when its stage begins
(R45, R53, R288). -/
theorem exec_answers {s : State} {i : Instr} (h : Inv (s.atOp i)) : ∃ t, exec i s = .next t := by
  obtain ⟨bs, hf⟩ := h.frameIn
  have hlen := hf.2
  have hi := h.opInv.op_mem
  simp only [List.mem_cons, List.not_mem_nil, or_false] at hi
  obtain rfl | rfl | rfl | rfl | rfl | rfl := hi
  · exact (opEthParse_gives hf).settle_next
  · obtain ⟨-, -, hheader, hipOff, hipLen⟩ := h.opInv
    exact (opIpv4Parse_gives hf (hlen ▸ hheader) hipOff (hlen ▸ hipLen)).settle_next
  · obtain ⟨-, -, hslice, -⟩ := h.opInv
    exact (opTcpParse_gives hf (hlen ▸ hslice)).settle_next
  · obtain ⟨-, -, hslice, -⟩ := h.opInv
    obtain ⟨t, ht⟩ := opRender_goesOn hf (hlen ▸ hslice)
    exact ⟨t, congrArg settle ht⟩
  · exact ⟨_, rfl⟩
  · exact ⟨_, rfl⟩

/-- A request answers a next state, whatever the source answers (R232). -/
theorem exec_nextFrame_answers (s : State) : ∃ t, exec .nextFrame s = .next t := by
  show ∃ t, execNextFrame s = .next t
  unfold execNextFrame
  cases request s <;> exact ⟨_, rfl⟩

theorem stepOp_answers {s : State} (h : Inv s) : ∃ t, stepOp s = .next t := by
  cases hop : s.op with
  | some i =>
    obtain ⟨t, ht⟩ := exec_answers ((State.atOp_self hop).symm ▸ h)
    exact ⟨_, stepOp_next (nextOp_of_op hop) ht⟩
  | none =>
    cases hloop : s.loop with
    | running =>
      obtain ⟨t, ht⟩ := exec_nextFrame_answers { s with op := none }
      exact ⟨_, stepOp_next (nextOp_of_running hop hloop) ht⟩
    | halted => exact ⟨s, stepOp_none (nextOp_of_halted hop hloop)⟩

/-! ## What halts the loop -/

/-- The loop is halted in `t` only if it was in `s`, or if the request made in `s` took an error (R240, R256). -/
def HaltsOnlyOnError (s t : State) : Prop :=
  t.loop = .halted → s.loop = .halted ∨ (s.op = none ∧ ∃ e rest, s.answers = .error e :: rest)

/-- Moving the sequence on does not bear on the loop. -/
theorem sequence_loop (i : Instr) (t : State) : (sequence i t).loop = t.loop := by
  unfold sequence
  split <;> rfl

/-- The operations of a pass are none that bears on the loop (R240). -/
theorem OpInv.op_not_mem {s : State} {i : Instr} (h : OpInv (s.atOp i)) :
    i ∉ [.nextFrame, .run, .captureError] := by
  have hi := h.op_mem
  simp only [List.mem_cons, List.not_mem_nil, or_false] at hi
  obtain rfl | rfl | rfl | rfl | rfl | rfl := hi <;> decide

theorem nextFrame_haltsOnlyOnError {s t : State} (hop : s.op = none) (h : exec .nextFrame s = .next t) :
    HaltsOnlyOnError s t := by
  obtain rfl | ⟨-, ⟨bs, rest, -, rfl⟩ | ⟨e, rest, ha, -⟩⟩ := exec_nextFrame_cases h
  · exact .inl
  · exact .inl
  · exact fun _ => .inr ⟨hop, e, rest, ha⟩

theorem stepOp_haltsOnlyOnError {s t : State} (h : Inv s) (hstep : stepOp s = .next t) : HaltsOnlyOnError s t := by
  obtain ⟨-, rfl⟩ | ⟨i, u, hnext, hexec, rfl⟩ := stepOp_cases hstep
  · exact .inl
  suffices hu : HaltsOnlyOnError s u from fun hhalted => hu ((sequence_loop i u).symm.trans hhalted)
  cases hop : s.op with
  | some j =>
    cases hnext.symm.trans (nextOp_of_op hop)
    have hi : OpInv (State.atOp { s with op := none } i) := (State.atOp_self hop).symm ▸ h.opInv
    have hkept := exec_loopKept hexec hi.op_not_mem
    exact fun hhalted => .inl (hkept.loop_eq.symm.trans hhalted)
  | none =>
    cases hloop : s.loop with
    | running =>
      cases hnext.symm.trans (nextOp_of_running hop hloop)
      rw [State.op_none_self hop] at hexec
      exact nextFrame_haltsOnlyOnError hop hexec
    | halted => exact fun _ => .inl hloop

/-- Settles O49: a reset leaves the loop running, and a step of the sequence answers and halts on an error only. -/
theorem noFrameStopsTheBlock : Obligations.NoFrameStopsTheBlock := by
  unfold Obligations.NoFrameStopsTheBlock
  intro s h
  have hseq (r : List Nat) : ∃ t, stepOp { s with resetIn := r } = .next t ∧ HaltsOnlyOnError s t := by
    obtain ⟨t, ht⟩ := stepOp_answers (s := { s with resetIn := r }) h
    exact ⟨t, ht, stepOp_haltsOnlyOnError (s := { s with resetIn := r }) h ht⟩
  rcases hreset : s.resetIn with _ | ⟨_ | n, rest⟩
  · rw [step_eq_stepOp hreset]
    exact hseq s.resetIn
  · exact ⟨_, step_reset_asserted hreset, fun hhalted => by cases hhalted⟩
  · rw [step_reset_nearer hreset]
    exact hseq (n :: rest)

/-! ## The sink holds the block -/

theorem run_one (s : State) : Host.Core.run core 1 s = step s := by
  simp only [Host.Core.run, core]
  cases step s <;> rfl

theorem run_succ_of_step {s t : State} (h : step s = .next t) (k : Nat) :
    Host.Core.run core (k + 1) s = Host.Core.run core k t := by
  simp only [Host.Core.run, core, h]

/-- A state its own step leads back to stays for ever. -/
theorem run_of_step_self {s : State} (h : step s = .next s) (k : Nat) : Host.Core.run core k s = .next s := by
  induction k with
  | zero => rfl
  | succ k ih => rw [run_succ_of_step h, ih]

/-- `s` with `p` pending and the sink at the turns `sink`: what the turns of `EMIT_REPORT` change (R286). -/
def State.holding (s : State) (p : Option PacketReport) (sink : List SinkTurn) : State :=
  { s with pending := p, sink := sink }

theorem State.holding_self {s : State} {sink : List SinkTurn} (h : s.sink = sink) : s.holding s.pending sink = s := by
  rw [← h]; rfl

section
variable {s : State} (hop : s.op = some .emitReport) (hreset : s.resetIn = []) (p : Option PacketReport)
include hop hreset

/-- One turn of handing a record over, with no reset planned (R286). -/
theorem step_holding (sink : List SinkTurn) :
    step (s.holding p sink) = .next (sequence .emitReport { s.holding p sink with op := none }.emitReport) := by
  rw [step_eq_stepOp (s := s.holding p sink) hreset]
  exact stepOp_next (nextOp_of_op hop) rfl

/-- A turn in which the record is not taken leaves the block in `EMIT_REPORT` with the record pending (R286). -/
theorem step_holding_offer {sink sink' : List SinkTurn}
    (h : { s.holding p sink with op := none }.emitReport
      = { { s.holding p sink with op := none }.offer with sink := sink' }) :
    step (s.holding p sink) = .next (s.holding (some s.regs.report) sink') := by
  rw [step_holding hop hreset, h, sequence_emitReport_pending (r := s.regs.report) rfl]
  exact congrArg Host.Outcome.next (State.atOp_self (s := s.holding (some s.regs.report) sink') hop)

/-- A turn in which the record is taken: the status comes next (R233, R286). -/
theorem step_holding_deliver {sink sink' : List SinkTurn}
    (h : { s.holding p sink with op := none }.emitReport
      = { { s.holding p sink with op := none }.deliver with sink := sink' }) :
    step (s.holding p sink) = .next { s with
      reportOut := s.reportOut ++ [s.regs.report]
      pending := none
      sink := sink'
      op := some .emitDiag } := by
  rw [step_holding hop hreset, h, sequence_emitReport_taken rfl]
  rfl

/-- A sink that never takes the record: each turn leaves it pending, the first and every one after it (R286, U7). -/
theorem run_holding_never (rest : List SinkTurn) (k : Nat) :
    Host.Core.run core (k + 1) (s.holding p (.never :: rest))
      = .next (s.holding (some s.regs.report) (.never :: rest)) := by
  have hturn (p : Option PacketReport) :=
    step_holding_offer hop hreset p (sink := .never :: rest) (State.emitReport_of_never rfl)
  rw [run_succ_of_step (hturn p)]
  exact run_of_step_self (hturn _) k

/-- A sink that takes the record after `n` turns: each is one step of waiting (R286). -/
theorem run_holding_takesAfter (n : Nat) (rest : List SinkTurn) :
    Host.Core.run core n (s.holding p (.takesAfter n :: rest))
      = .next (s.holding (if n = 0 then p else some s.regs.report) (.takesAfter 0 :: rest)) := by
  induction n generalizing p with
  | zero => rfl
  | succ n ih =>
    rw [run_succ_of_step (step_holding_offer hop hreset p (State.emitReport_of_waits rfl)), ih]
    simp

end

/-- Settles O59: each turn of waiting is one step, and so is the turn in which the sink takes the record. -/
theorem sinkHoldsTheBlock : Obligations.SinkHoldsTheBlock := by
  unfold Obligations.SinkHoldsTheBlock
  intro s hop hreset
  refine ⟨fun h k => ?_, fun n rest h => ?_, fun h => ?_⟩
  · obtain ⟨rest, hsink⟩ := List.head?_eq_some_iff.1 h
    have hrun := run_holding_never hop hreset s.pending rest k
    rw [State.holding_self hsink, ← hsink] at hrun
    exact hrun
  · have hwaits := run_holding_takesAfter hop hreset s.pending n rest
    rw [State.holding_self h] at hwaits
    refine ⟨hwaits, (run_add hwaits 1).trans ((run_one _).trans ?_)⟩
    exact step_holding_deliver hop hreset _ (State.emitReport_of_takes rfl)
  · exact step_holding_deliver hop hreset s.pending (sink := s.sink) (State.emitReport_of_ready h)

end Sys2Proof.Machine
